-- ==== Sys2Proof/Word.lean ====
section
/-! DEFINITION. The word types of the block: bytes (00_scope.md R10) and the 16-bit checksum register. -/

namespace Sys2Proof

/-- A byte: 8 bits, unsigned (R10). -/
abbrev Byte := BitVec 8

/-- The width of the checksum register (R10, R25). -/
abbrev Word16 := BitVec 16

end Sys2Proof
end

