-- ==== Sys2Proof/Machine/Checksum.lean ====
section
/-! DEFINITION. The checksum engine (43_checksum.md): CRC-16/X25 as a pure function of a byte sequence, and the
equivalent form of R138. -/

namespace Sys2Proof.Machine

/-- The polynomial in normal form (R130). -/
def crcPolynomial : Word16 := 0x1021#16

/-- The polynomial with its 16 bits reversed, which the right-shifting form uses (R131). -/
def crcReversedPolynomial : Word16 := 0x8408#16

/-- The initial register value (R130). -/
def crcInit : Word16 := 0xFFFF#16

/-- The final XOR (R130). -/
def crcFinalXor : Word16 := 0xFFFF#16

/-- One of the eight turns of `crc_step` (R131). -/
def crcBit (c : Word16) : Word16 :=
  if c.getLsbD 0 then (c >>> 1) ^^^ crcReversedPolynomial else c >>> 1

/-- Some number of turns. -/
def crcBits : Nat → Word16 → Word16
  | 0, c => c
  | k + 1, c => crcBits k (crcBit c)

/-- `crc_step(c, b)` (R131). -/
def crcStep (c : Word16) (b : Byte) : Word16 := crcBits 8 (c ^^^ b.zeroExtend 16)

/-- The register after the bytes of `d` in index order (R132, R137 c). -/
def crcFold (c : Word16) (d : List Byte) : Word16 := d.foldl crcStep c

/-- `crc16_x25(d)` (R132). -/
def crc16X25 (d : List Byte) : Word16 := crcFold crcInit d ^^^ crcFinalXor

/-! ## The non-reflected form (R138), which no command uses -/

/-- One of the eight turns of the left-shifting form (R138). -/
def crcBitLeft (c : Word16) : Word16 :=
  if c.getLsbD 15 then (c <<< 1) ^^^ crcPolynomial else c <<< 1

/-- Some number of turns of the left-shifting form. -/
def crcBitsLeft : Nat → Word16 → Word16
  | 0, c => c
  | k + 1, c => crcBitsLeft k (crcBitLeft c)

/-- Fold one byte into the left-shifting register, the byte reversed and moved to the top (R138). -/
def crcStepLeft (c : Word16) (b : Byte) : Word16 := crcBitsLeft 8 (c ^^^ (b.reverse.zeroExtend 16 <<< 8))

/-- The checksum by the left-shifting form (R138). -/
def crc16Left (d : List Byte) : Word16 := (d.foldl crcStepLeft crcInit).reverse ^^^ crcFinalXor

end Sys2Proof.Machine
end

