-- ==== Sys2Proof/Syntax.lean ====
section
/-! DEFINITION. The commands of the block (one constructor per row of opcode_table.json), the error kinds and
the responses. -/

namespace Sys2Proof

/-- The six commands (30_encoding.md R65). -/
inductive Instr where
  /-- RESET (R80). -/
  | reset
  /-- LOAD (R81) with its data bytes `d[0..N)` in load order. N is the number of them (R66). -/
  | load (data : List Byte)
  /-- FINALIZE (R82). -/
  | finalize
  /-- PULL (R100). -/
  | pull
  /-- PING_REQUEST (R150). -/
  | pingRequest
  /-- PING_CONFIRM (R151). -/
  | pingConfirm
deriving DecidableEq, Repr

/-- The five error kinds, in the order of 60_exceptions.md R160. -/
inductive ErrorKind where
  | badChecksum
  | badHeader
  | bufferOverflow
  | fileNotFound
  | badOffset
deriving DecidableEq, Repr

/-- What a command answers (00_scope.md R15, 30_encoding.md R67). -/
inductive Response where
  /-- The command is done and returns no data. -/
  | ack
  /-- A PULL that emits the wire byte `b`. -/
  | byte (b : Byte)
  /-- A PULL past the end of the frame. -/
  | exhausted
  /-- The command failed. -/
  | error (e : ErrorKind)
deriving DecidableEq, Repr

end Sys2Proof
end

