-- ==== Sys2Proof/WellFormed.lean ====
section
/-! DEFINITION. Which terms of `Instr` a command on the port can spell. -/

namespace Sys2Proof

/-- LOAD's count N is an 8-bit unsigned number, 0 to 255 (30_encoding.md R66). N above 32 is well formed: the
command can be spelled, and LOAD rejects it (R81). -/
abbrev countFits (data : List Byte) : Prop := data.length ≤ 255

/-- An instruction that the command port can spell. -/
def Instr.wf : Instr → Bool
  | .reset => true
  | .load data => decide (countFits data)
  | .finalize => true
  | .pull => true
  | .pingRequest => true
  | .pingConfirm => true

end Sys2Proof
end

