-- ==== Sys2Proof/Decode.lean ====
section
/-! DEFINITION. The command-port encoding (30_encoding.md sections 2 to 4): the opcode table, the decoder, the
encoder, and the bytes of a response. -/

namespace Sys2Proof

/-! ## The opcode table -/

/-- The two command formats of opcode_table.json. -/
inductive OpForm where
  /-- `op8`: the opcode byte alone is the command. -/
  | op8 (i : Instr)
  /-- `op8_len8_data`: the opcode, a count byte N, then N data bytes (R64, R66). -/
  | op8Len8Data
deriving DecidableEq, Repr

/-- One row of the opcode table: byte 0 under `mask` equals `pattern`. -/
structure OpRow where
  pattern : Byte
  mask : Byte
  form : OpForm
deriving DecidableEq, Repr

/-- Whether byte 0 of a command selects the row. -/
def OpRow.hits (r : OpRow) (opcode : Byte) : Bool := opcode &&& r.mask == r.pattern

/-- The opcode assignment (R65): all eight bits of byte 0 are compared. -/
def opTable : List OpRow :=
  [ ⟨0x00#8, 0xFF#8, .op8 .reset⟩,
    ⟨0x01#8, 0xFF#8, .op8Len8Data⟩,
    ⟨0x02#8, 0xFF#8, .op8 .finalize⟩,
    ⟨0x03#8, 0xFF#8, .op8 .pull⟩,
    ⟨0x04#8, 0xFF#8, .op8 .pingRequest⟩,
    ⟨0x05#8, 0xFF#8, .op8 .pingConfirm⟩ ]

/-- The format that an opcode selects, `none` for a reserved one (R69). -/
def formOf (opcode : Byte) : Option OpForm :=
  (opTable.find? (fun r => r.hits opcode)).map OpRow.form

/-! ## The decoder -/

/-- What the bytes waiting on the command port start with. -/
inductive Decoded where
  /-- A whole command, and the bytes after it. -/
  | command (i : Instr) (rest : List Byte)
  /-- A reserved opcode: the verdict "invalid" (R69). -/
  | invalid (opcode : Byte)
  /-- Not all bytes of the first command have arrived (R64, R70). -/
  | incomplete
deriving DecidableEq, Repr

/-- The bytes after the LOAD opcode: the count N, then N data bytes, all of which belong to the command even when
N is above 32 (R66). -/
def decodeLoad : List Byte → Decoded
  | [] => .incomplete
  | n :: bytes =>
    if n.toNat ≤ bytes.length then .command (.load (bytes.take n.toNat)) (bytes.drop n.toNat)
    else .incomplete

/-- The decoder, total on any bytes (R64, R69). -/
def decode : List Byte → Decoded
  | [] => .incomplete
  | opcode :: bytes =>
    match formOf opcode with
    | some (.op8 i) => .command i bytes
    | some .op8Len8Data => decodeLoad bytes
    | none => .invalid opcode

/-! ## The encoder -/

/-- Byte 0 of a command (R65). -/
def opcodeOf : Instr → Byte
  | .reset => 0x00#8
  | .load _ => 0x01#8
  | .finalize => 0x02#8
  | .pull => 0x03#8
  | .pingRequest => 0x04#8
  | .pingConfirm => 0x05#8

/-- The bytes after byte 0: LOAD's count and data, nothing for the other five (R64, R66). -/
def operandBytes : Instr → List Byte
  | .reset => []
  | .load data => BitVec.ofNat 8 data.length :: data
  | .finalize => []
  | .pull => []
  | .pingRequest => []
  | .pingConfirm => []

/-- The bytes of a command on the port (R64). -/
def encode (i : Instr) : List Byte := opcodeOf i :: operandBytes i

/-! ## Responses -/

/-- The code of an error kind (R68). -/
def ErrorKind.code : ErrorKind → Byte
  | .badChecksum => 0x00#8
  | .badHeader => 0x01#8
  | .bufferOverflow => 0x02#8
  | .fileNotFound => 0x03#8
  | .badOffset => 0x04#8

/-- The bytes of a response on the response port (R67). -/
def encodeResponse : Response → List Byte
  | .ack => [0x00]
  | .byte b => [0x01, b]
  | .exhausted => [0x02]
  | .error e => [0x03, e.code]

/-! ## A command given as one number -/

/-- The length of a command in bytes, from byte 0 alone, plus byte 1 for LOAD (R64); 1 for a reserved opcode (R65). -/
def commandLength (opcode count : Byte) : Nat :=
  match formOf opcode with
  | some (.op8 _) => 1
  | some .op8Len8Data => 2 + count.toNat
  | none => 1

/-- The first `n` bytes of a number, least significant first. -/
def bytesOfNat : Nat → Nat → List Byte
  | 0, _ => []
  | n + 1, w => BitVec.ofNat 8 w :: bytesOfNat n (w / 256)

/-- The bytes of one command laid out from a number: byte 0 is bits 7..0, byte 1 bits 15..8, and so on. -/
def bytesOfCommand (w : Nat) : List Byte :=
  bytesOfNat (commandLength (BitVec.ofNat 8 w) (BitVec.ofNat 8 (w / 256))) w

/-- An opcode-table word as the port carries it: the bytes of its command, every bit from `nbits` up being 0. -/
def tableBytes (nbits w : Nat) : List Byte := bytesOfCommand (w % 2 ^ nbits)

/-- The instruction the decoder reads from an opcode-table word. -/
def decodeTableWord (nbits w : Nat) : Option Instr :=
  match decode (tableBytes nbits w) with
  | .command i _ => some i
  | .invalid _ => none
  | .incomplete => none

end Sys2Proof
end

