-- ==== Sys2Proof/Config.lean ====
section
/-! DEFINITION. What is fixed for one instance of the block: the parameters of 00_scope.md R8 and R9. -/

namespace Sys2Proof

/-- The parameters that differ between instances and never change in one (R9, R32). -/
structure Config where
  /-- `P_RESET_CLEARS_ESC` (R9): whether the RESET command clears `escapePending`. The default is the spec's. -/
  resetClearsEsc : Bool := true
deriving DecidableEq, Repr

/-- `CAPACITY` (R8): the size of the payload buffer in bytes and the largest legal payload length. -/
abbrev Config.capacity : Nat := 32

end Sys2Proof
end

