-- ==== Sys2Proof/Machine/State.lean ====
section
/-! DEFINITION. The state of the block, the reasons a step can stop, and the state after power-on. -/

namespace Sys2Proof.Machine

/-- The payload buffer: an ordered array of 32 bytes, indices 0 to 31 (10_state.md R21). -/
abbrev Payload := Vector Byte 32

/-- One FrameEncoder: the five fields of 10_state.md R20, the parameter of its instance, and its two ports. -/
structure State where
  /-- `payload[0..31]`, the raw bytes of the frame (R21). -/
  payload : Payload
  /-- The count of valid bytes in `payload`, 0 to 32 (R22). -/
  length : BitVec 6
  /-- The number of logical frame positions emitted so far, 0 to 36 (R23). -/
  cursor : BitVec 6
  /-- Set between an escape prefix and the transformed value that follows it (R24). -/
  escapePending : Bool
  /-- The checksum register (R25). -/
  checksum : Word16
  /-- The parameter of this instance (00_scope.md R9); no command changes it (R32).
  DESIGN CHOICE, safe (log 1): it stands here because `exec` takes no other argument. -/
  config : Config
  /-- The command bytes that the caller has delivered and the block has not executed, oldest first (30_encoding.md
  R64). DESIGN CHOICE, safe (log 4): the model's own field. -/
  commandPort : List Byte
  /-- Every response since power-on, oldest first (30_encoding.md R67).
  DESIGN CHOICE, safe (log 5): the model's own field. -/
  responsePort : List Response
deriving DecidableEq, Repr

/-- Why a step can fault. -/
inductive Fault where
  /-- A read of `payload` at an index above 31, which does not exist (20_memory.md R40). FINALIZE and PULL raise it in
  a state with `length > 32`; no command makes such a state. Safe: no reachable state meets it (log 8). -/
  | noSuchPayloadByte
deriving DecidableEq, Repr

/-- Why a step can be refused. -/
inductive Refusal where
  /-- An instruction that the model gives no meaning yet. No arm of `exec` raises it. Safe. -/
  | notModelled (mnemonic : String)
  /-- A reserved opcode, 0x06 to 0xFF, stands first on the command port (30_encoding.md R69); `step` raises it.
  Safe: the spec asks a model to refuse it, and nothing is claimed of a stream that holds one (log 7). -/
  | reservedOpcode (opcode : Byte)
deriving DecidableEq, Repr

/-- The state after power-on (10_state.md R31, 70_reset_and_hazards.md R180): `length` 0, `cursor` 0,
`escapePending` false, `checksum` 0x0000. DESIGN CHOICE, unsafe (log 3): the payload bytes, which R31 leaves
unspecified and no command can show, are 0. The ports are empty (logs 4, 5), and the parameter has the spec's
default (log 2). -/
def State.reset : State where
  payload := Vector.replicate 32 0
  length := 0
  cursor := 0
  escapePending := false
  checksum := 0x0000
  config := {}
  commandPort := []
  responsePort := []

end Sys2Proof.Machine
end

