-- ==== Sys2Proof/Machine/Ops.lean ====
section
/-! DEFINITION. The named operations over the fields of the state, which the meanings are written with. A field that
an operation does not name keeps its value (00_scope.md R14). -/

namespace Sys2Proof.Machine

/-! ## Register writes -/

/-- `length <- n`. -/
def State.setLength (s : State) (n : BitVec 6) : State := { s with length := n }

/-- `cursor <- c`. -/
def State.setCursor (s : State) (c : BitVec 6) : State := { s with cursor := c }

/-- `cursor <- 0`: the next PULL starts a frame. -/
def State.rewind (s : State) : State := s.setCursor 0

/-- `cursor <- cursor + 1`. It wraps in no state with `length ≤ 32` (10_state.md R23; log 9). -/
def State.advance (s : State) : State := s.setCursor (s.cursor + 1)

/-- `escapePending <- e`. -/
def State.setEscapePending (s : State) (e : Bool) : State := { s with escapePending := e }

/-- `checksum <- c`. -/
def State.setChecksum (s : State) (c : Word16) : State := { s with checksum := c }

/-! ## The payload buffer -/

/-- The buffer with `d[k]` at every index k below the length of `d`; the other entries keep their bytes (R21). -/
def Payload.store (p : Payload) (d : List Byte) : Payload :=
  p.mapIdx fun k old =>
    match d[k]? with
    | some b => b
    | none => old

/-- Replace the buffer. -/
def State.setPayload (s : State) (p : Payload) : State := { s with payload := p }

/-- `payload[k] <- d[k]` for every k below the length of `d`. -/
def State.storePayload (s : State) (d : List Byte) : State := s.setPayload (Payload.store s.payload d)

/-- `payload[i]`, or `none` where there is no such byte: the buffer has indices 0 to 31 (20_memory.md R40). -/
def State.readByte (s : State) (i : Nat) : Option Byte := s.payload[i]?

/-- `payload[0..length)` as a list: the bytes at the indices below `length` that the buffer has. -/
def State.loaded (s : State) : List Byte := s.payload.toList.take s.length.toNat

/-- `payload[0..length)`, or `none` where it runs past the end of the buffer, which no reachable state does. -/
def State.readLoaded (s : State) : Option (List Byte) :=
  if s.length.toNat ≤ Config.capacity then some s.loaded else none

/-! ## The ports -/

/-- End a command with its one response (00_scope.md R15, 30_encoding.md R67). -/
def State.respond (s : State) (r : Response) : State := { s with responsePort := s.responsePort ++ [r] }

/-- A command fails with error kind `e`. The block has no trap: an error saves nothing, changes no mode, transfers
control nowhere and writes no field; its response is its only effect (60_exceptions.md R162, R164). -/
def State.reject (s : State) (e : ErrorKind) : State := s.respond (.error e)

/-- What is still waiting on the command port. -/
def State.setCommandPort (s : State) (bytes : List Byte) : State := { s with commandPort := bytes }

/-- The caller puts command bytes on the port; they wait behind those already there (30_encoding.md R64). -/
def State.deliver (s : State) (bytes : List Byte) : State := s.setCommandPort (s.commandPort ++ bytes)

/-- The bytes the caller has read on the response port (30_encoding.md R67). -/
def State.responseBytes (s : State) : List Byte := s.responsePort.flatMap encodeResponse

end Sys2Proof.Machine
end

