-- ==== Sys2Proof/Machine/Wire.lean ====
section
/-! DEFINITION. The wire and payload constants of 30_encoding.md R60. -/

namespace Sys2Proof.Machine

/-- `FRAME_END`: the start and end delimiter. -/
def frameEnd : Byte := 0xC0#8

/-- `ESCAPE`: the escape prefix. -/
def escapePrefix : Byte := 0xDB#8

/-- `ESCAPE_END`: the second byte of the escape sequence for 0xC0. -/
def escapeEnd : Byte := 0xDC#8

/-- `ESCAPE_ESCAPE`: the second byte of the escape sequence for 0xDB. -/
def escapeEscape : Byte := 0xDD#8

/-- The payload code that PING_REQUEST loads. -/
def pingRequestCode : Byte := 0x01#8

/-- The payload code that PING_CONFIRM loads. -/
def pingConfirmCode : Byte := 0x81#8

end Sys2Proof.Machine
end

