-- ==== Sys2Proof/Machine/Flags.lean ====
section
/-! DEFINITION. The block's one flag, `escapePending`: the escape step of the byte-stuffer (42_escape.md) and RESET's
rule for the flag (40_control.md R80). -/

namespace Sys2Proof.Machine

/-- `isReserved(b)` (R120). -/
def isReserved (b : Byte) : Bool := b == frameEnd || b == escapePrefix

/-- `escapeOf(b)` (R121). It has a value on the two reserved bytes and on no other. -/
def escapeOf (b : Byte) : Option Byte :=
  if b = frameEnd then some escapeEnd
  else if b = escapePrefix then some escapeEscape
  else none

/-- `escapeStep(b)` (R122): one PULL at a body position whose byte is `b`. The flag is read only when `b` is
reserved. -/
def State.escapeStep (s : State) (b : Byte) : State :=
  match escapeOf b with
  | some transformed =>
    if s.escapePending then ((s.setEscapePending false).advance).respond (.byte transformed)
    else (s.setEscapePending true).respond (.byte escapePrefix)
  | none => s.advance.respond (.byte b)

/-- RESET's rule for the flag (R80): cleared when `P_RESET_CLEARS_ESC`, else kept. -/
def State.escapeAfterReset (s : State) : Bool := if s.config.resetClearsEsc then false else s.escapePending

end Sys2Proof.Machine
end

