-- ==== Sys2Proof/Machine/Operands.lean ====
section
/-! DEFINITION. What a command reads: the count check of LOAD, and the frame position and body byte of PULL
(41_pull.md R101). -/

namespace Sys2Proof.Machine

/-- LOAD accepts a payload of at most `CAPACITY` bytes (40_control.md R81). -/
def accepts (d : List Byte) : Bool := decide (d.length ≤ Config.capacity)

/-- LOAD's count as `length` holds it, a 6-bit value (R81). -/
def countOf (d : List Byte) : BitVec 6 := BitVec.ofNat 6 d.length

/-- The logical position of the frame state machine (R101). -/
inductive Position where
  | start
  /-- The body byte `payload[i]`. -/
  | payload (i : Nat)
  /-- The body byte `checksum[15:8]`. -/
  | checksumHigh
  /-- The body byte `checksum[7:0]`. -/
  | checksumLow
  | endDelimiter
  | done
deriving DecidableEq, Repr

/-- `position(cursor, n)` (R101), on the numbers the registers hold. -/
def position (cursor n : Nat) : Position :=
  if cursor = 0 then .start
  else if cursor ≤ n then .payload (cursor - 1)
  else if cursor = n + 1 then .checksumHigh
  else if cursor = n + 2 then .checksumLow
  else if cursor = n + 3 then .endDelimiter
  else .done

/-- The position of the next PULL. -/
def State.position (s : State) : Position := Machine.position s.cursor.toNat s.length.toNat

/-- `checksum[15:8]`, sent first (20_memory.md R41). -/
def highByte (c : Word16) : Byte := c.extractLsb' 8 8

/-- `checksum[7:0]`, sent second (R41). -/
def lowByte (c : Word16) : Byte := c.extractLsb' 0 8

/-- `bodyByte(cursor)` (R101): the byte of a body position. It is `none` at a position that has none, and where
`payload` has no such index. -/
def State.bodyByte (s : State) : Option Byte :=
  match s.position with
  | .start => none
  | .payload i => s.readByte i
  | .checksumHigh => some (highByte s.checksum)
  | .checksumLow => some (lowByte s.checksum)
  | .endDelimiter => none
  | .done => none

end Sys2Proof.Machine
end

