-- ==== Sys2Proof/Machine/Control.lean ====
section
/-! DEFINITION. The control commands RESET, LOAD and FINALIZE (40_control.md). -/

namespace Sys2Proof.Machine

/-- RESET (R80). -/
def execReset (s : State) : Host.Outcome State Fault Refusal :=
  .next ((((s.setCursor 0).setLength 0).setEscapePending s.escapeAfterReset).respond .ack)

/-- What an accepted LOAD writes (R81): the bytes, their count, and the cursor back to the start. -/
def State.loadPayload (s : State) (d : List Byte) : State :=
  ((s.storePayload d).setLength (countOf d)).rewind

/-- LOAD (R81): a payload of more than 32 bytes is rejected and changes nothing. -/
def execLoad (data : List Byte) (s : State) : Host.Outcome State Fault Refusal :=
  if accepts data then .next ((s.loadPayload data).respond .ack)
  else .next (s.reject .bufferOverflow)

/-- FINALIZE (R82): the checksum of `payload[0..length)`, and the cursor back to the start. -/
def execFinalize (s : State) : Host.Outcome State Fault Refusal :=
  match s.readLoaded with
  | some bytes => .next (((s.setChecksum (crc16X25 bytes)).rewind).respond .ack)
  | none => .fault .noSuchPayloadByte

end Sys2Proof.Machine
end

