-- ==== Sys2Proof/Machine/Ping.lean ====
section
/-! DEFINITION. The convenience commands PING_REQUEST and PING_CONFIRM (44_ping.md). -/

namespace Sys2Proof.Machine

/-- Load the one-byte payload `code` and finalize, in one atomic step (R150, R151). -/
def State.ping (s : State) (code : Byte) : State :=
  ((s.loadPayload [code]).setChecksum (crc16X25 [code])).respond .ack

/-- PING_REQUEST (R150). -/
def execPingRequest (s : State) : Host.Outcome State Fault Refusal := .next (s.ping pingRequestCode)

/-- PING_CONFIRM (R151). -/
def execPingConfirm (s : State) : Host.Outcome State Fault Refusal := .next (s.ping pingConfirmCode)

end Sys2Proof.Machine
end

