-- ==== Sys2Proof/Machine/Pull.lean ====
section
/-! DEFINITION. PULL, the frame state machine (41_pull.md). -/

namespace Sys2Proof.Machine

/-- PULL at START (R102): the delimiter, never escaped. -/
def State.pullStart (s : State) : State := (s.setCursor 1).respond (.byte frameEnd)

/-- PULL at END (R106): `cursor <- length + 4`. -/
def State.pullEnd (s : State) : State := (s.setCursor (s.length + 4)).respond (.byte frameEnd)

/-- PULL at DONE (R107): no field is written. -/
def State.pullDone (s : State) : State := s.respond .exhausted

/-- PULL at a body position (R103, R104, R105): the escape step on its byte. -/
def State.pullBody (s : State) : Host.Outcome State Fault Refusal :=
  match s.bodyByte with
  | some b => .next (s.escapeStep b)
  | none => .fault .noSuchPayloadByte

/-- PULL (R108), by the position of the cursor in the frame. -/
def execPull (s : State) : Host.Outcome State Fault Refusal :=
  match s.position with
  | .start => .next s.pullStart
  | .payload _ => s.pullBody
  | .checksumHigh => s.pullBody
  | .checksumLow => s.pullBody
  | .endDelimiter => .next s.pullEnd
  | .done => .next s.pullDone

end Sys2Proof.Machine
end

