-- ==== Sys2Proof/Machine/Dispatch.lean ====
section
/-! DEFINITION. One arm per command. -/

namespace Sys2Proof.Machine

def exec (i : Instr) (s : State) : Host.Outcome State Fault Refusal :=
  match i with
  | .reset => Sys2Proof.Machine.execReset s
  | .load data => Sys2Proof.Machine.execLoad data s
  | .finalize => Sys2Proof.Machine.execFinalize s
  | .pull => Sys2Proof.Machine.execPull s
  | .pingRequest => Sys2Proof.Machine.execPingRequest s
  | .pingConfirm => Sys2Proof.Machine.execPingConfirm s

end Sys2Proof.Machine
end

