-- ==== Sys2Proof/Machine/Fetch.lean ====
section
/-! DEFINITION. How the next command is taken from the command port. The block has no program counter and stores no
program: its program is the command stream (10_state.md R26). -/

namespace Sys2Proof.Machine

/-- The command that waits first on the port (30_encoding.md R64). -/
def State.fetch (s : State) : Decoded := decode s.commandPort

/-- Put a command in front of what waits on the port, so that it is fetched next. -/
def State.offer (s : State) (bytes : List Byte) : State := s.setCommandPort (bytes ++ s.commandPort)

/-- No whole command waits: the block is idle and keeps its whole state (60_exceptions.md R171); a truncated LOAD is
not executed (30_encoding.md R70). DEDUCED, safe (log 6). -/
def State.idle (s : State) : Host.Outcome State Fault Refusal := .next s

/-- A reserved opcode waits first: refused, with no state change and no response (30_encoding.md R69). -/
def refuseOpcode (opcode : Byte) : Host.Outcome State Fault Refusal := .refused (.reservedOpcode opcode)

end Sys2Proof.Machine
end

