-- ==== Sys2Proof/Machine/Step.lean ====
section
/-! DEFINITION. One step: the block executes the command that waits first on its port (00_scope.md R12, 20_memory.md
R50). -/

namespace Sys2Proof.Machine

/-- One atomic step. The command's bytes leave the port, all of them, whether the command succeeds or is rejected
(30_encoding.md R66). -/
def step (s : State) : Host.Outcome State Fault Refusal :=
  match s.fetch with
  | .command i rest => exec i (s.setCommandPort rest)
  | .invalid opcode => refuseOpcode opcode
  | .incomplete => s.idle

/-- `s` with the command of an opcode-table word delivered in front of the port, so that the next step runs exactly
it (log 4). -/
def State.withFetchWord (s : State) (nbits w : Nat) : State := s.offer (tableBytes nbits w)

end Sys2Proof.Machine
end

