-- ==== Sys2Proof/Machine/Instances.lean ====
section
/-! DEFINITION. Several encoders side by side: independent copies of the state, with nothing shared (60_exceptions.md
R170, 20_memory.md R50). -/

namespace Sys2Proof.Machine

/-- What came of asking one instance to step. DESIGN CHOICE, safe (log 14): where that instance stops, the answer is its
reason alone, and no list of instances follows it. -/
inductive Stepped where
  /-- All instances, the one that stepped among them. -/
  | next (all : List State)
  /-- The instance that was asked faults. -/
  | fault (r : Fault)
  /-- The instance that was asked is refused (30_encoding.md R69). -/
  | refused (r : Refusal)
  /-- There is no instance of that number. -/
  | noInstance
deriving DecidableEq, Repr

/-- Instance `k` takes one step, and the others keep their states (R170). The spec gives no joint run, so it does not say
how one goes on once an instance has stopped. DESIGN CHOICE, safe (log 14): a stop of instance `k` ends the joint run. -/
def stepInstance (k : Nat) (all : List State) : Stepped :=
  match all[k]? with
  | none => .noInstance
  | some s =>
    match step s with
    | .next t => .next (all.set k t)
    | .fault r => .fault r
    | .refused r => .refused r

end Sys2Proof.Machine
end

