-- ==== Sys2Proof/Machine/Stream.lean ====
section
/-! DEFINITION. Sequences of commands: execution in issue order (20_memory.md R50) and the pseudo-commands SEND and
DRAIN (30_encoding.md R72). -/

namespace Sys2Proof.Machine

/-- Go on with `f` where an outcome is a next state; a fault or a refusal ends the run. -/
def andThen (o : Host.Outcome State Fault Refusal) (f : State → Host.Outcome State Fault Refusal) :
    Host.Outcome State Fault Refusal :=
  match o with
  | .next t => f t
  | .fault r => .fault r
  | .refused r => .refused r

/-- Some number of steps, stopping at the first fault or refusal: what `core.run` does, over the model's own types. -/
def runSteps : Nat → State → Host.Outcome State Fault Refusal
  | 0, s => .next s
  | k + 1, s => andThen (step s) (runSteps k)

/-- Execute commands one at a time, in the order given (R50). -/
def execAll : List Instr → State → Host.Outcome State Fault Refusal
  | [], s => .next s
  | i :: is, s => andThen (exec i s) (execAll is)

/-- `SEND [bytes]` expands to `LOAD [bytes]` then `FINALIZE` (R72). -/
def sendCommands (d : List Byte) : List Instr := [.load d, .finalize]

/-- `DRAIN`: PULL repeated until the response is `Exhausted`, that PULL included, and at most `fuel` PULLs (R72). -/
def drain : Nat → State → Host.Outcome State Fault Refusal
  | 0, s => .next s
  | fuel + 1, s =>
    andThen (exec .pull s) fun t => if t.responsePort.getLast? = some .exhausted then .next t else drain fuel t

/-- R72's bound on the PULLs of a DRAIN: `length + 4 + (length + 2) + 1`. -/
def State.drainBound (s : State) : Nat := s.length.toNat + 4 + (s.length.toNat + 2) + 1

end Sys2Proof.Machine
end

