-- ==== Sys2Proof/Safety.lean ====
section
/-! DEFINITION. The terms that claims are stated in: the invariants of 10_state.md R30, the caller's obligations of
70_reset_and_hazards.md R184 to R187, the wire format of 30_encoding.md R61, and what can be observed of a state
(10_state.md R21). -/

namespace Sys2Proof.Machine

/-! ## Invariants (R30) -/

/-- I-LEN: `length ≤ 32`. -/
abbrev State.LenOk (s : State) : Prop := s.length.toNat ≤ 32

/-- I-CUR: `cursor ≤ length + 4`. -/
abbrev State.CurOk (s : State) : Prop := s.cursor.toNat ≤ s.length.toNat + 4

/-- I-LEN and I-CUR, which hold in every reachable state. -/
abbrev State.Inv (s : State) : Prop := s.LenOk ∧ s.CurOk

/-- I-ESC: a set flag belongs to the reserved body byte at the cursor. It holds only while the caller keeps the
sequencing rules; where it fails, the flag is stale (R29). -/
abbrev State.EscOk (s : State) : Prop :=
  s.escapePending = true →
    1 ≤ s.cursor.toNat ∧ s.cursor.toNat ≤ s.length.toNat + 2 ∧ s.bodyByte.any isReserved = true

/-! ## The caller's obligations (R184) -/

/-- Obligation 2 (R186): no command that rewinds the frame and keeps the flag is issued mid-escape. R186 names every
LOAD, and R187 says that a rejected LOAD leaves a stream well-sequenced. DEDUCED, safe (log 13): only an accepted LOAD
counts. -/
def keepsEscapeRule (i : Instr) (s : State) : Bool :=
  match i with
  | .reset => s.config.resetClearsEsc || !s.escapePending
  | .load d => !(accepts d && s.escapePending)
  | .finalize => !s.escapePending
  | .pull => true
  | .pingRequest => !s.escapePending
  | .pingConfirm => !s.escapePending

/-- Whether a loaded payload waits for its FINALIZE after a command, given whether one waited before (R185). RESET drops
the payload, and a ping is a LOAD with its FINALIZE (R152). DEDUCED, safe (log 13): a rejected LOAD leaves the answer as
it was, because it leaves a stream well-sequenced (R187). -/
def loadWaits (waiting : Bool) : Instr → Bool
  | .reset => false
  | .load d => accepts d || waiting
  | .finalize => false
  | .pull => waiting
  | .pingRequest => false
  | .pingConfirm => false

/-- Whether a RESET has come since the last FINALIZE or ping, given whether one had before the command. RESET keeps the
checksum register (R80), so the register then belongs to the payload that RESET dropped (R182, R185). -/
def resetSince (earlier : Bool) : Instr → Bool
  | .reset => true
  | .load _ => earlier
  | .finalize => false
  | .pull => earlier
  | .pingRequest => false
  | .pingConfirm => false

/-- Obligation 1 (R185): no PULL while a loaded payload waits for its FINALIZE. -/
def keepsFinalizeRule (waiting : Bool) (i : Instr) : Bool :=
  match i with
  | .reset => true
  | .load _ => true
  | .finalize => true
  | .pull => !waiting
  | .pingRequest => true
  | .pingConfirm => true

/-- A well-sequenced command stream from state `s` (R184): each command keeps both obligations in the state it meets.
Obligation 3 needs no clause, because a rejected LOAD leaves a stream well-sequenced (R187). -/
def wellSequenced : Bool → List Instr → State → Bool
  | _, [], _ => true
  | waiting, i :: is, s =>
    keepsFinalizeRule waiting i && keepsEscapeRule i s &&
      match exec i s with
      | .next t => wellSequenced (loadWaits waiting i) is t
      | .fault _ => true
      | .refused _ => true

/-- The checksum register holds the checksum of the payload that is loaded (R185). -/
abbrev State.ChecksumMatches (s : State) : Prop := s.checksum = crc16X25 s.loaded

/-! ## The wire format (R61) -/

/-- `escape(b)` (R61, R124): the wire spelling of a body byte. -/
def escape (b : Byte) : List Byte :=
  match escapeOf b with
  | some transformed => [escapePrefix, transformed]
  | none => [b]

/-- The body bytes of a frame: the payload, then the checksum high byte first (R41, R42). -/
def frameBody (payload : List Byte) (checksum : Word16) : List Byte :=
  payload ++ [highByte checksum, lowByte checksum]

/-- The complete frame of a payload and a checksum (R61). -/
def frame (payload : List Byte) (checksum : Word16) : List Byte :=
  frameEnd :: ((frameBody payload checksum).flatMap escape ++ [frameEnd])

/-- The wire bytes of a frame body when the escape flag is `stale` at its start (R126): the first reserved byte then
loses its prefix, and every other byte is spelled as R124 says. -/
def staleBody (stale : Bool) : List Byte → List Byte
  | [] => []
  | b :: bs =>
    match escapeOf b with
    | none => b :: staleBody stale bs
    | some transformed =>
      if stale then transformed :: staleBody false bs else escapePrefix :: transformed :: staleBody false bs

/-- The wire bytes that PULLs still yield from state `s` before they answer Exhausted (R101, R112, R126). -/
def State.remaining (s : State) : List Byte :=
  if s.cursor.toNat = 0 then
    frameEnd :: (staleBody s.escapePending (frameBody s.loaded s.checksum) ++ [frameEnd])
  else if s.cursor.toNat ≤ s.length.toNat + 3 then
    staleBody s.escapePending ((frameBody s.loaded s.checksum).drop (s.cursor.toNat - 1)) ++ [frameEnd]
  else []

/-- How many bytes are reserved (R109's k is this number over the frame body). -/
def reservedCount (bytes : List Byte) : Nat := bytes.countP isReserved

/-- What a receiver that maps `DB DC` to C0 and `DB DD` to DB recovers from body bytes (R125); `none` where the bytes
are no stuffed body. `afterPrefix` says that the byte before was a prefix. The receiver itself is out of scope (R5):
this is the yardstick of R125. -/
def unstuff (afterPrefix : Bool) : List Byte → Option (List Byte)
  | [] => if afterPrefix then none else some []
  | b :: bs =>
    if afterPrefix then
      if b = escapeEnd then (unstuff false bs).map (frameEnd :: ·)
      else if b = escapeEscape then (unstuff false bs).map (escapePrefix :: ·)
      else none
    else if b = escapePrefix then unstuff true bs
    else if b = frameEnd then none
    else (unstuff false bs).map (b :: ·)

/-! ## What can be observed (R21, R28) -/

/-- `t` differs from `s` at most in the payload bytes at or beyond `length`, which no command reads (R21). -/
abbrev SameVisible (s t : State) : Prop :=
  t = s.setPayload t.payload ∧ ∀ i, i < s.length.toNat → t.readByte i = s.readByte i

/-- Two outcomes that show the same. -/
def SameOutcome : Host.Outcome State Fault Refusal → Host.Outcome State Fault Refusal → Prop
  | .next s, .next t => SameVisible s t
  | .fault f, .fault g => f = g
  | .refused f, .refused g => f = g
  | .next _, .fault _ => False
  | .next _, .refused _ => False
  | .fault _, .next _ => False
  | .fault _, .refused _ => False
  | .refused _, .next _ => False
  | .refused _, .fault _ => False

/-- The states in which the next PULL is the frame's start delimiter, with the flag down: a frame that is ready to
drain (the premise of 41_pull.md R109 without its checksum). -/
abbrev State.ReadyToDrain (s : State) : Prop := s.LenOk ∧ s.cursor = 0 ∧ s.escapePending = false

end Sys2Proof.Machine
end

