-- ==== Sys2Proof/Certificates/Slice0/Obligations.lean ====
section
/-! DEFINITION. The statements for the provers. Each docstring names the rules of spec/ that the statement formalises;
a statement about a command's result is an equation for `exec`, so it also says that the command completes and what it
leaves unchanged. -/

open Sys2Proof Sys2Proof.Machine

/-! ## Power-on and invariants -/

/-- R31: the values after power-on. The payload bytes are unspecified, so the drain that R31 gives holds for every
payload `p`. The empty response port and the default parameter are the model's choices (logs 2, 5); the statement rests on
neither. -/
def Obligations.PowerOnValues : Prop :=
  State.reset.length = 0 ∧ State.reset.cursor = 0 ∧ State.reset.escapePending = false ∧
  State.reset.checksum = 0x0000 ∧
  ∀ (p : Payload) (c : Config) (out : List Response),
    drain 5 { State.reset with payload := p, config := c, responsePort := out } =
      .next { State.reset with
        payload := p, config := c, cursor := 4,
        responsePort := out ++ [.byte 0xC0, .byte 0x00, .byte 0x00, .byte 0xC0, .exhausted] }

/-- R30 at power-on: I-LEN, I-CUR and I-ESC. -/
def Obligations.ResetMeetsInvariants : Prop := State.reset.Inv ∧ State.reset.EscOk

/-- R22, R23, R30: every step keeps I-LEN and I-CUR, whatever the caller sends. -/
def Obligations.StepKeepsLengthAndCursorInRange : Prop :=
  ∀ s t : State, s.Inv → step s = .next t → t.Inv

/-- R30, R186: a step whose command keeps obligation 2 keeps I-ESC too. That a rejected LOAD keeps it, mid-escape as well,
is the model's reading of R187 (log 13, DEDUCED). -/
def Obligations.SequencedStepKeepsEscapeInvariant : Prop :=
  ∀ s t : State, s.Inv → s.EscOk →
    (∀ i rest, s.fetch = .command i rest → keepsEscapeRule i s = true) →
    step s = .next t → t.Inv ∧ t.EscOk

/-- R163, R166, R69: with I-LEN no step faults, and a step is refused exactly where a reserved opcode waits first. The
model's choices, both DEDUCED: where no whole command waits (R64, R70, R171) the next state is the same state (log 6),
and the refusal of R69 is the outcome `refused` (log 7). -/
def Obligations.StepStopsOnlyAtReservedOpcode : Prop :=
  ∀ s : State, s.LenOk →
    ((∃ b rest, s.commandPort = b :: rest ∧ 6 ≤ b.toNat ∧ step s = .refused (.reservedOpcode b)) ∨
      ∃ t, step s = .next t) ∧
    ∀ b rest, s.commandPort = b :: rest → 6 ≤ b.toNat → step s = .refused (.reservedOpcode b)

/-! ## Fetch, decode, encode -/

/-- R12, R50, R64, R66: a step executes the command that waits first, its bytes gone from the port. -/
def Obligations.StepRunsTheDecodedCommand : Prop :=
  ∀ (s : State) (i : Instr) (rest : List Byte),
    decode s.commandPort = .command i rest → step s = exec i { s with commandPort := rest }

/-- R64 to R66: decoding the bytes of a well-formed command gives it back and leaves the bytes after it. -/
def Obligations.DecodeOfEncode : Prop :=
  ∀ (i : Instr) (rest : List Byte), i.wf = true → decode (encode i ++ rest) = .command i rest

/-- R64 to R66: bytes that decode to a command are that command's encoding, and the command is well formed. -/
def Obligations.EncodeOfDecode : Prop :=
  ∀ (bytes rest : List Byte) (i : Instr),
    decode bytes = .command i rest → bytes = encode i ++ rest ∧ i.wf = true

/-- R65, R66: words written out from the opcode table. -/
def Obligations.SpecWordsDecode : Prop :=
  decode [0x00] = .command .reset [] ∧
  decode [0x01, 0x02, 0x21, 0xDB, 0x02] = .command (.load [0x21, 0xDB]) [0x02] ∧
  decode [0x01, 0x00] = .command (.load []) [] ∧
  decode [0x02] = .command .finalize [] ∧
  decode [0x03, 0x03] = .command .pull [0x03] ∧
  decode [0x04] = .command .pingRequest [] ∧
  decode [0x05] = .command .pingConfirm []

/-- R69: a reserved opcode is refused, with no response and no state change, for the rest of the run. The model's
choice, DEDUCED (log 7): the refusal mark is the outcome `refused`, which ends the run and carries no state. -/
def Obligations.ReservedOpcodeIsRefused : Prop :=
  ∀ (opcode : Byte) (rest : List Byte), 6 ≤ opcode.toNat →
    decode (opcode :: rest) = .invalid opcode ∧
    ∀ (s : State) (k : Nat), s.commandPort = opcode :: rest →
      runSteps (k + 1) s = .refused (.reservedOpcode opcode)

/-- R70: only LOAD varies in length, and a truncated LOAD is never executed. The model's choice, DEDUCED (log 6): a
step then answers the same state, with the bytes still on the port. -/
def Obligations.TruncatedLoadIsNotExecuted : Prop :=
  (∀ i : Instr, (encode i).length = 1 ∨ ∃ d, i = .load d ∧ (encode i).length = 2 + d.length) ∧
  ∀ (s : State) (k : Nat),
    (s.commandPort = [0x01] ∨
      ∃ (n : Byte) (d : List Byte), s.commandPort = 0x01 :: n :: d ∧ d.length < n.toNat) →
    runSteps k s = .next s

/-- R64, R171: the block idles, keeping its whole state, while a command lacks bytes, and executes it once the rest has
arrived. The model's choices: a step of the idle block answers the same state, with the bytes so far still on the port
(log 6, DEDUCED), and `deliver` is the arrival of more (log 4, DESIGN CHOICE). -/
def Obligations.CommandWaitsForAllItsBytes : Prop :=
  ∀ (s : State) (i : Instr) (p q : List Byte), i.wf = true → encode i = p ++ q → q ≠ [] → s.commandPort = p →
    (∀ k, runSteps k s = .next s) ∧ step (s.deliver q) = exec i { s with commandPort := [] }

/-- R50: a stream of commands on the port runs in issue order, each seeing the effects of those before it. -/
def Obligations.CommandsRunInIssueOrder : Prop :=
  ∀ (is : List Instr) (s : State) (rest : List Byte), (∀ i ∈ is, i.wf = true) →
    runSteps is.length { s with commandPort := is.flatMap encode ++ rest } =
      execAll is { s with commandPort := rest }

/-- The model's reading of an opcode-table word (log 4): delivered in front of the port, it is what the next step
executes. -/
def Obligations.TableWordsRunNext : Prop :=
  ∀ s : State,
    step (s.withFetchWord 8 0x00) = exec .reset s ∧ step (s.withFetchWord 8 0x01) = exec (.load []) s ∧
    step (s.withFetchWord 8 0x02) = exec .finalize s ∧ step (s.withFetchWord 8 0x03) = exec .pull s ∧
    step (s.withFetchWord 8 0x04) = exec .pingRequest s ∧ step (s.withFetchWord 8 0x05) = exec .pingConfirm s

/-! ## Responses and errors -/

/-- R67: every command yields exactly one response, of the kinds its row allows, and the bytes of each response. -/
def Obligations.OneResponsePerCommand : Prop :=
  (∀ (i : Instr) (s t : State), exec i s = .next t →
    ∃ r, t.responsePort = s.responsePort ++ [r] ∧
      (r = .ack → i ≠ .pull ∧ ∀ d, i = .load d → d.length ≤ 32) ∧
      ((∃ b, r = .byte b) → i = .pull ∧ s.cursor.toNat ≤ s.length.toNat + 3) ∧
      (r = .exhausted → i = .pull ∧ s.length.toNat + 3 < s.cursor.toNat) ∧
      ((∃ e, r = .error e) → ∃ d, i = .load d ∧ 32 < d.length)) ∧
  encodeResponse .ack = [0x00] ∧ (∀ b, encodeResponse (.byte b) = [0x01, b]) ∧
  encodeResponse .exhausted = [0x02] ∧ ∀ e, encodeResponse (.error e) = [0x03, e.code]

/-- R160, R68: the five error kinds and their codes, in the order of the spec, and no other code. -/
def Obligations.ErrorKindsAndCodes : Prop :=
  ErrorKind.badChecksum.code = 0x00 ∧ ErrorKind.badHeader.code = 0x01 ∧ ErrorKind.bufferOverflow.code = 0x02 ∧
  ErrorKind.fileNotFound.code = 0x03 ∧ ErrorKind.badOffset.code = 0x04 ∧
  ∀ e : ErrorKind, e.code.toNat ≤ 4 ∧
    (e = .badChecksum ∨ e = .badHeader ∨ e = .bufferOverflow ∨ e = .fileNotFound ∨ e = .badOffset)

/-- R67, R68: the byte stream of the response port can be read back in one way only. -/
def Obligations.ResponseBytesAreUnambiguous : Prop :=
  ∀ (r r' : Response) (x y : List Byte), encodeResponse r ++ x = encodeResponse r' ++ y → r = r' ∧ x = y

/-- R161, R162: BufferOverflow, code 0x02, is the one error; exactly a LOAD of more than 32 bytes raises it, and its
response is its only effect. -/
def Obligations.OnlyOversizedLoadFails : Prop :=
  ErrorKind.bufferOverflow.code = 0x02 ∧
  ∀ (i : Instr) (s t : State) (e : ErrorKind), exec i s = .next t →
    (t.responsePort = s.responsePort ++ [.error e] ↔ e = .bufferOverflow ∧ ∃ d, i = .load d ∧ 32 < d.length) ∧
    (t.responsePort = s.responsePort ++ [.error e] →
      t = { s with responsePort := s.responsePort ++ [.error .bufferOverflow] })

/-! ## Control commands -/

/-- R80: RESET, for both values of the parameter; RESET twice equals RESET once; and the drain straight after it. -/
def Obligations.ResetEffect : Prop :=
  encode .reset = [0x00] ∧
  ∀ s : State, ∃ t, exec .reset s = .next t ∧
    t = { s with
      length := 0, cursor := 0,
      escapePending := (if s.config.resetClearsEsc = true then false else s.escapePending),
      responsePort := s.responsePort ++ [.ack] } ∧
    exec .reset t = .next { t with responsePort := t.responsePort ++ [.ack] } ∧
    (t.escapePending = false →
      drain 7 t = .next { t with
        cursor := 4,
        responsePort := t.responsePort ++ (frame [] s.checksum).map .byte ++ [.exhausted] })

/-- R81: LOAD of at most 32 bytes stores them in order and rewinds; LOAD of more is rejected and changes nothing. -/
def Obligations.LoadEffect : Prop :=
  ∀ (s : State) (d : List Byte),
    encode (.load d) = 0x01 :: BitVec.ofNat 8 d.length :: d ∧
    (32 < d.length →
      exec (.load d) s = .next { s with responsePort := s.responsePort ++ [.error .bufferOverflow] }) ∧
    (d.length ≤ 32 → ∃ t, exec (.load d) s = .next t ∧
      t = { s with
        payload := t.payload, length := BitVec.ofNat 6 d.length, cursor := 0,
        responsePort := s.responsePort ++ [.ack] } ∧
      t.length.toNat = d.length ∧
      (∀ k, k < d.length → t.readByte k = d[k]?) ∧
      ∀ k, d.length ≤ k → t.readByte k = s.readByte k)

/-- R82: FINALIZE computes the checksum of `payload[0..length)` and rewinds; with `length = 0` the checksum is 0x0000;
FINALIZE twice equals FINALIZE once. -/
def Obligations.FinalizeEffect : Prop :=
  encode .finalize = [0x02] ∧
  ∀ s : State, s.LenOk → ∃ t, exec .finalize s = .next t ∧
    t = { s with
      checksum := crc16X25 (s.payload.toList.take s.length.toNat), cursor := 0,
      responsePort := s.responsePort ++ [.ack] } ∧
    (s.length = 0 → t.checksum = 0x0000) ∧
    exec .finalize t = .next { t with responsePort := t.responsePort ++ [.ack] }

/-- R150: PING_REQUEST, in every state, and the drain after it, whatever the flag: a stale flag meets no reserved byte. -/
def Obligations.PingRequestEffect : Prop :=
  encode .pingRequest = [0x04] ∧ crc16X25 [0x01] = 0xE1F1 ∧
  ∀ s : State, ∃ t, exec .pingRequest s = .next t ∧
    t = { s with
      payload := t.payload, length := 1, checksum := 0xE1F1, cursor := 0,
      responsePort := s.responsePort ++ [.ack] } ∧
    t.readByte 0 = some 0x01 ∧ (∀ k, k ≠ 0 → t.readByte k = s.readByte k) ∧
    drain 6 t = .next { t with
      cursor := 5,
      responsePort := t.responsePort ++
        [.byte 0xC0, .byte 0x01, .byte 0xE1, .byte 0xF1, .byte 0xC0, .exhausted] }

/-- R151: PING_CONFIRM, in every state, and the drain after it, whatever the flag. -/
def Obligations.PingConfirmEffect : Prop :=
  encode .pingConfirm = [0x05] ∧ crc16X25 [0x81] = 0x65F9 ∧
  ∀ s : State, ∃ t, exec .pingConfirm s = .next t ∧
    t = { s with
      payload := t.payload, length := 1, checksum := 0x65F9, cursor := 0,
      responsePort := s.responsePort ++ [.ack] } ∧
    t.readByte 0 = some 0x81 ∧ (∀ k, k ≠ 0 → t.readByte k = s.readByte k) ∧
    drain 6 t = .next { t with
      cursor := 5,
      responsePort := t.responsePort ++
        [.byte 0xC0, .byte 0x81, .byte 0x65, .byte 0xF9, .byte 0xC0, .exhausted] }

/-- R152: each ping leaves the state that LOAD of its code and FINALIZE leave, up to the responses given. -/
def Obligations.PingEqualsLoadThenFinalize : Prop :=
  ∀ s : State,
    (∃ t u, execAll (sendCommands [0x01]) s = .next t ∧ exec .pingRequest s = .next u ∧
      u = { t with responsePort := u.responsePort }) ∧
    ∃ t u, execAll (sendCommands [0x81]) s = .next t ∧ exec .pingConfirm s = .next u ∧
      u = { t with responsePort := u.responsePort }

/-- R72, R81, R82: SEND leaves the payload loaded, its checksum in the register and the cursor at the start. -/
def Obligations.SendLoadsAndFinalizes : Prop :=
  ∀ (s : State) (d : List Byte), d.length ≤ 32 → ∃ t, execAll (sendCommands d) s = .next t ∧
    t = { s with
      payload := t.payload, length := BitVec.ofNat 6 d.length, checksum := crc16X25 d, cursor := 0,
      responsePort := s.responsePort ++ [.ack, .ack] } ∧
    t.loaded = d ∧ ∀ k, d.length ≤ k → t.readByte k = s.readByte k

/-- R47: RESET, FINALIZE and an accepted LOAD do nothing more when repeated; a rejected LOAD changes nothing; a PULL
that is not exhausted changes `cursor` or `escapePending`, and one that is changes nothing. -/
def Obligations.RepeatedCommands : Prop :=
  ∀ s t : State,
    (∀ i : Instr, (i = .reset ∨ i = .finalize ∨ ∃ d, i = .load d ∧ d.length ≤ 32) → exec i s = .next t →
      exec i t = .next { t with responsePort := t.responsePort ++ [.ack] }) ∧
    (∀ d : List Byte, 32 < d.length → exec (.load d) s = .next t → { t with responsePort := s.responsePort } = s) ∧
    (exec .pull s = .next t →
      ((t.cursor ≠ s.cursor ∨ t.escapePending ≠ s.escapePending) ↔ s.cursor.toNat ≤ s.length.toNat + 3))

/-- R182: the state after RESET is the power-on state as far as any command can show, but for the checksum register
and, when the parameter is false, the flag. -/
def Obligations.ResetComparedWithPowerOn : Prop :=
  ∀ s : State, ∃ t, exec .reset s = .next t ∧
    SameVisible t { State.reset with
      checksum := s.checksum,
      escapePending := (!s.config.resetClearsEsc && s.escapePending),
      config := s.config, commandPort := s.commandPort, responsePort := s.responsePort ++ [.ack] }

/-- R20, R32: which command may change which field. -/
def Obligations.CommandsWriteOnlyTheirFields : Prop :=
  ∀ (i : Instr) (s t : State), exec i s = .next t →
    (t.payload ≠ s.payload → (∃ d, i = .load d) ∨ i = .pingRequest ∨ i = .pingConfirm) ∧
    (t.length ≠ s.length → i = .reset ∨ (∃ d, i = .load d) ∨ i = .pingRequest ∨ i = .pingConfirm) ∧
    (t.cursor.toNat > s.cursor.toNat → i = .pull) ∧
    (t.escapePending ≠ s.escapePending → i = .pull ∨ (i = .reset ∧ s.config.resetClearsEsc = true)) ∧
    (t.checksum ≠ s.checksum → i = .finalize ∨ i = .pingRequest ∨ i = .pingConfirm) ∧
    t.config = s.config ∧ t.commandPort = s.commandPort

/-- R32: CAPACITY is 32 and no run changes the parameter of an instance. -/
def Obligations.ParametersNeverChange : Prop :=
  Config.capacity = 32 ∧
  ∀ (k : Nat) (s t : State), runSteps k s = .next t → t.config = s.config

/-! ## PULL -/

/-- R101: the position as a function of cursor and length: each case exactly when the rule says, so the cases are
disjoint and cover every cursor; and the body byte of each body position. -/
def Obligations.PositionTable : Prop :=
  (∀ c n : Nat,
    (position c n = .start ↔ c = 0) ∧
    (∀ i, position c n = .payload i ↔ 1 ≤ c ∧ c ≤ n ∧ i = c - 1) ∧
    (position c n = .checksumHigh ↔ c = n + 1) ∧
    (position c n = .checksumLow ↔ c = n + 2) ∧
    (position c n = .endDelimiter ↔ c = n + 3) ∧
    (position c n = .done ↔ n + 3 < c)) ∧
  ∀ s : State, s.LenOk →
    (1 ≤ s.cursor.toNat → s.cursor.toNat ≤ s.length.toNat →
      ∃ b, s.payload[s.cursor.toNat - 1]? = some b ∧ s.bodyByte = some b) ∧
    (s.cursor.toNat = s.length.toNat + 1 → s.bodyByte = some ((s.checksum >>> 8).setWidth 8)) ∧
    (s.cursor.toNat = s.length.toNat + 2 → s.bodyByte = some (s.checksum.setWidth 8))

/-- R102: PULL at START emits 0xC0 and goes to position 1; the flag keeps its value. -/
def Obligations.PullAtStart : Prop :=
  ∀ s : State, s.cursor = 0 →
    exec .pull s = .next { s with cursor := 1, responsePort := s.responsePort ++ [.byte 0xC0] }

/-- R103, R104, R105, R120, R121, R122: PULL at a body position, by the byte and the flag. -/
def Obligations.PullAtBodyPositions : Prop :=
  ∀ (s : State) (b : Byte),
    ((1 ≤ s.cursor.toNat ∧ s.cursor.toNat ≤ s.length.toNat ∧ s.payload[s.cursor.toNat - 1]? = some b) ∨
      (s.cursor.toNat = s.length.toNat + 1 ∧ b = (s.checksum >>> 8).setWidth 8) ∨
      (s.cursor.toNat = s.length.toNat + 2 ∧ b = s.checksum.setWidth 8)) →
    (isReserved b = true ↔ b = 0xC0 ∨ b = 0xDB) ∧
    (isReserved b = false →
      exec .pull s = .next { s with cursor := s.cursor + 1, responsePort := s.responsePort ++ [.byte b] }) ∧
    (isReserved b = true → s.escapePending = false →
      exec .pull s = .next { s with
        escapePending := true, responsePort := s.responsePort ++ [.byte 0xDB] }) ∧
    (isReserved b = true → s.escapePending = true →
      exec .pull s = .next { s with
        escapePending := false, cursor := s.cursor + 1,
        responsePort := s.responsePort ++ [.byte (if b = 0xC0 then 0xDC else 0xDD)] })

/-- R106: PULL at END emits 0xC0 and goes to `length + 4`; the flag keeps its value. -/
def Obligations.PullAtEnd : Prop :=
  ∀ s : State, s.LenOk → s.cursor.toNat = s.length.toNat + 3 → ∃ t, exec .pull s = .next t ∧
    t = { s with cursor := t.cursor, responsePort := s.responsePort ++ [.byte 0xC0] } ∧
    t.cursor.toNat = s.length.toNat + 4

/-- R107: at DONE every further PULL answers Exhausted and changes nothing, and each of the other commands, a LOAD when
it is accepted, leaves DONE for START. -/
def Obligations.ExhaustedUntilRewound : Prop :=
  ∀ s : State, s.LenOk → s.length.toNat + 3 < s.cursor.toNat →
    (∀ k, execAll (List.replicate k .pull) s =
      .next { s with responsePort := s.responsePort ++ List.replicate k .exhausted }) ∧
    ∀ i : Instr, i ≠ .pull → (∀ d, i = .load d → d.length ≤ 32) →
      ∃ t, exec i s = .next t ∧ t.cursor = 0

/-- R123: at a delimiter and at DONE the flag is neither read nor changed. -/
def Obligations.DelimitersIgnoreTheFlag : Prop :=
  ∀ (s t : State) (flag : Bool), s.cursor.toNat = 0 ∨ s.length.toNat + 3 ≤ s.cursor.toNat →
    exec .pull s = .next t →
    t.escapePending = s.escapePending ∧
    exec .pull { s with escapePending := flag } = .next { t with escapePending := flag }

/-- R100, R23, R26, R163: PULL completes wherever I-LEN holds, emits one byte or Exhausted, writes only `cursor` and
`escapePending`, and moves the cursor by at most one, never past `length + 4`. -/
def Obligations.PullWritesOnlyCursorAndFlag : Prop :=
  ∀ s : State, s.LenOk → ∃ t r, exec .pull s = .next t ∧
    t = { s with
      cursor := t.cursor, escapePending := t.escapePending, responsePort := s.responsePort ++ [r] } ∧
    ((∃ b, r = .byte b) ∨ (r = .exhausted ∧ t.cursor = s.cursor ∧ t.escapePending = s.escapePending)) ∧
    (t.cursor = s.cursor ∨ t.cursor.toNat = s.cursor.toNat + 1) ∧
    (s.CurOk → t.CurOk)

/-- R186: while I-ESC holds, the block is mid-escape after a PULL exactly when that PULL answered Byte(0xDB), and one
more PULL ends it. -/
def Obligations.MidEscapeShowsAsPrefix : Prop :=
  ∀ s t : State, s.EscOk → exec .pull s = .next t →
    (t.escapePending = true ↔ t.responsePort.getLast? = some (.byte 0xDB)) ∧
    (t.escapePending = true → ∃ u, exec .pull t = .next u ∧ u.escapePending = false ∧ u.cursor = t.cursor + 1)

/-- R52, R188: every rewinding command abandons what was not drained: the next PULL is the start of a frame, and the
flag is what the command left. -/
def Obligations.RewindStartsANewFrame : Prop :=
  ∀ (i : Instr) (s : State), s.LenOk → i ≠ .pull → (∀ d, i = .load d → d.length ≤ 32) →
    ∃ t, exec i s = .next t ∧ t.cursor = 0 ∧ (s.escapePending = false → t.escapePending = false) ∧
      exec .pull t = .next { t with cursor := 1, responsePort := t.responsePort ++ [.byte 0xC0] }

/-! ## Whole frames -/

/-- R72: from any state of the invariant, wherever in a frame and whatever the flag, DRAIN reaches Exhausted within its
bound and leaves everything but cursor, flag and responses alone. -/
def Obligations.DrainEndsWithinItsBound : Prop :=
  ∀ s : State, s.Inv → ∃ t, drain s.drainBound s = .next t ∧
    t = { s with
      cursor := t.cursor, escapePending := t.escapePending, responsePort := t.responsePort } ∧
    t.cursor.toNat = s.length.toNat + 4 ∧ t.responsePort.getLast? = some .exhausted

/-- R109, R110, R111: the drain after a FINALIZE with the flag down yields exactly the frame of the loaded payload and
its checksum, n + 4 + k bytes, then Exhausted. -/
def Obligations.DrainAfterFinalizeEmitsTheFrame : Prop :=
  ∀ s : State, s.LenOk → s.escapePending = false → ∃ t, exec .finalize s = .next t ∧
    t.loaded = s.loaded ∧ t.checksum = crc16X25 s.loaded ∧
    drain t.drainBound t = .next { t with
      cursor := s.length + 4, escapePending := false,
      responsePort := t.responsePort ++ (frame s.loaded (crc16X25 s.loaded)).map .byte ++ [.exhausted] } ∧
    (frame s.loaded (crc16X25 s.loaded)).length =
      s.length.toNat + 4 + reservedCount (frameBody s.loaded (crc16X25 s.loaded))

/-- R126, R122: the drain of a whole frame under either value of the flag at its start: a flag that is up takes the
prefix of the first reserved body byte, and stays up when there is none. -/
def Obligations.DrainUnderAStaleFlag : Prop :=
  ∀ s : State, s.LenOk → s.cursor = 0 →
    drain s.drainBound s = .next { s with
      cursor := s.length + 4,
      escapePending := (s.escapePending && !(frameBody s.loaded s.checksum).any isReserved),
      responsePort := s.responsePort ++
        (frameEnd :: (staleBody s.escapePending (frameBody s.loaded s.checksum) ++ [frameEnd])).map .byte ++
        [.exhausted] }

/-- R25, R163, R185: a drain after LOAD without FINALIZE carries the new payload and the old checksum. -/
def Obligations.UnfinalizedDrainCarriesTheOldChecksum : Prop :=
  ∀ (s : State) (d : List Byte), d.length ≤ 32 → s.escapePending = false → ∃ t u,
    exec (.load d) s = .next t ∧ drain t.drainBound t = .next u ∧
    u.responsePort = t.responsePort ++ (frame d s.checksum).map .byte ++ [.exhausted] ∧
    u.checksum = s.checksum

/-- R110: with the default parameter, RESET, LOAD, FINALIZE and a drain emit a frame that depends on the payload alone,
from any state whatever. -/
def Obligations.ResetLoadFinalizeIsReproducible : Prop :=
  ∀ (s : State) (d : List Byte), s.config.resetClearsEsc = true → d.length ≤ 32 → ∃ t u,
    execAll [.reset, .load d, .finalize] s = .next t ∧ drain t.drainBound t = .next u ∧
    u.responsePort = t.responsePort ++ (frame d (crc16X25 d)).map .byte ++ [.exhausted]

/-- R109, R110, R112: from the start of a frame with the flag down, the first k PULLs yield the first k bytes of the
frame, and Exhausted once it is over, for every k: the drain need not run to its end. -/
def Obligations.PullsEmitTheFrameInOrder : Prop :=
  ∀ (s : State) (k : Nat), s.ReadyToDrain → ∃ u, execAll (List.replicate k .pull) s = .next u ∧
    u.responsePort = s.responsePort ++ ((frame s.loaded s.checksum).take k).map .byte ++
      List.replicate (k - (frame s.loaded s.checksum).length) .exhausted

/-- R183, R184: in a well-sequenced stream, what the PULLs after a rewinding command (a LOAD counts when it is accepted)
yield is the frame of the payload then loaded; and where a PULL follows with no RESET since the last FINALIZE or ping, the
checksum in that frame matches the payload. What the stream's start owes is given by `waiting` (a loaded payload waits for
its FINALIZE) and `earlier` (a RESET has come since the last FINALIZE or ping). That a rejected LOAD breaks neither
obligation is the model's reading of R187 (log 13, DEDUCED). -/
def Obligations.WellSequencedStreamsEmitFrames : Prop :=
  ∀ (before : List Instr) (i : Instr) (k : Nat) (waiting earlier : Bool) (s t : State),
    s.LenOk → (waiting = false → earlier = false → s.ChecksumMatches) →
    i ≠ .pull → (∀ d, i = .load d → d.length ≤ 32) →
    wellSequenced waiting (before ++ i :: List.replicate k .pull) s = true →
    execAll (before ++ [i]) s = .next t →
    (∃ u, execAll (List.replicate k .pull) t = .next u ∧
      u.responsePort = t.responsePort ++ ((frame t.loaded t.checksum).take k).map .byte ++
        List.replicate (k - (frame t.loaded t.checksum).length) .exhausted) ∧
    (1 ≤ k → (before ++ [i]).foldl resetSince earlier = false → t.ChecksumMatches)

/-- R185, R25, R80: whatever the stream, the checksum matches at every point where no accepted LOAD waits for its
FINALIZE and no RESET has come since the last FINALIZE or ping; and a RESET leaves it matching exactly when the register
holds 0x0000. -/
def Obligations.ChecksumMatchesUnlessALoadOrResetWaits : Prop :=
  (∀ (is : List Instr) (waiting earlier : Bool) (s t : State), s.LenOk →
    (waiting = false → earlier = false → s.ChecksumMatches) → execAll is s = .next t →
    is.foldl loadWaits waiting = false → is.foldl resetSince earlier = false → t.ChecksumMatches) ∧
  ∀ s t : State, exec .reset s = .next t → (t.ChecksumMatches ↔ s.checksum = 0x0000)

/-- R63: between its two delimiters a frame has no 0xC0, and every 0xDB there is followed by 0xDC or 0xDD. -/
def Obligations.DelimitersOnlyAtTheEnds : Prop :=
  ∀ (payload : List Byte) (checksum : Word16), ∃ body : List Byte,
    frame payload checksum = 0xC0 :: (body ++ [0xC0]) ∧ (0xC0 : Byte) ∉ body ∧
    ∀ i : Nat, body[i]? = some 0xDB → body[i + 1]? = some 0xDC ∨ body[i + 1]? = some 0xDD

/-- R125: mapping `DB DC` to C0 and `DB DD` to DB recovers the body bytes exactly. -/
def Obligations.StuffingIsReversible : Prop :=
  ∀ body : List Byte, unstuff false (body.flatMap escape) = some body

/-! ## The checksum engine -/

/-- R131, R132: the algorithm in the rules' own form. -/
def Obligations.ChecksumAlgorithm : Prop :=
  (0x1021 : Word16).reverse = 0x8408 ∧
  (∀ (c : Word16) (b : Byte), crcStep c b =
    (fun r : Word16 => if r &&& 1 = 1 then (r >>> 1) ^^^ 0x8408 else r >>> 1)^[8] (c ^^^ b.setWidth 16)) ∧
  ∀ d : List Byte, crc16X25 d = d.foldl crcStep 0xFFFF ^^^ 0xFFFF

/-- R135, R136: the reference values. -/
def Obligations.ReferenceChecksums : Prop :=
  crc16X25 [] = 0x0000 ∧ crc16X25 [0x01] = 0xE1F1 ∧ crc16X25 [0x81] = 0x65F9 ∧
  crc16X25 [0x31, 0x32, 0x33, 0x34, 0x35, 0x36, 0x37, 0x38, 0x39] = 0x906E

/-- R137 (a) to (c): the engine is linear over GF(2), and folds a concatenation piece by piece. -/
def Obligations.ChecksumLaws : Prop :=
  (∀ (c c' : Word16) (b b' : Byte), crcStep (c ^^^ c') (b ^^^ b') = crcStep c b ^^^ crcStep c' b') ∧
  crcStep 0 0 = 0 ∧
  (∀ d e : List Byte, d.length = e.length →
    crc16X25 (List.zipWith (· ^^^ ·) d e) =
      crc16X25 d ^^^ crc16X25 e ^^^ crc16X25 (List.replicate d.length 0)) ∧
  ∀ d e : List Byte, crc16X25 (d ++ e) = e.foldl crcStep (d.foldl crcStep 0xFFFF) ^^^ 0xFFFF

/-- R138: the left-shifting form gives the same checksum on every input. -/
def Obligations.NonReflectedFormAgrees : Prop := ∀ d : List Byte, crc16Left d = crc16X25 d

/-! ## What cannot be observed -/

/-- R21, R29: the payload bytes at or beyond `length` never show: two states that differ only there answer every run
alike. -/
def Obligations.PayloadBeyondLengthIsUnobservable : Prop :=
  ∀ (k : Nat) (s t : State), SameVisible s t → SameOutcome (runSteps k s) (runSteps k t)

/-- R170, R50: steps of two instances commute; neither sees the other. -/
def Obligations.InstancesAreIndependent : Prop :=
  ∀ (j k : Nat) (all one both : List State), j ≠ k →
    stepInstance j all = .next one → stepInstance k one = .next both →
    one[k]? = all[k]? ∧ ∃ other, stepInstance k all = .next other ∧ stepInstance j other = .next both
end

