-- ==== Sys2Proof/Laws/Checksum.lean ====
section
/-! SUPPORT. Small laws of the checksum engine: the fold over a concatenation, and linearity turn by turn. -/

namespace Sys2Proof.Machine

@[simp] theorem crcFold_nil (c : Word16) : crcFold c [] = c := rfl

@[simp] theorem crcFold_cons (c : Word16) (b : Byte) (d : List Byte) :
    crcFold c (b :: d) = crcFold (crcStep c b) d := rfl

theorem crcFold_append (c : Word16) (d e : List Byte) : crcFold c (d ++ e) = crcFold (crcFold c d) e := by
  simp [crcFold, List.foldl_append]

/-- One turn is linear over GF(2). -/
theorem crcBit_xor (a c : Word16) : crcBit (a ^^^ c) = crcBit a ^^^ crcBit c := by
  unfold crcBit
  have hs : (a ^^^ c) >>> 1 = a >>> 1 ^^^ c >>> 1 := by ext i; simp
  cases ha : a.getLsbD 0 <;> cases hc : c.getLsbD 0 <;>
    simp only [BitVec.getLsbD_xor, ha, hc, hs, Bool.xor_false, Bool.xor_true, Bool.not_false, Bool.not_true,
      if_true, if_false, Bool.false_eq_true] <;>
    ext i <;> simp [Bool.xor_comm, Bool.xor_left_comm]

theorem crcBits_xor (k : Nat) (a c : Word16) : crcBits k (a ^^^ c) = crcBits k a ^^^ crcBits k c := by
  induction k generalizing a c with
  | zero => rfl
  | succ k ih => simp [crcBits, crcBit_xor, ih]

/-- Reversing after a left shift is shifting right after reversing. -/
theorem reverse_shiftLeft_one (c : Word16) : (c <<< 1).reverse = c.reverse >>> 1 := by
  apply BitVec.eq_of_getLsbD_eq
  intro i hi
  simp only [BitVec.getLsbD_reverse, BitVec.getMsbD_eq_getLsbD, BitVec.getLsbD_ushiftRight,
    BitVec.getLsbD_shiftLeft]
  by_cases h : 1 + i < 16
  · have h1 : 15 - i < 16 := by omega
    have h2 : ¬ 15 - i = 0 := by omega
    have h3 : 15 - i - 1 = 15 - (1 + i) := by omega
    simp [hi, h, h1, h2, h3]
  · have h2 : 15 - i = 0 := by omega
    simp [h, h2]

theorem reverse_xor (c d : Word16) : (c ^^^ d).reverse = c.reverse ^^^ d.reverse := by
  apply BitVec.eq_of_getLsbD_eq
  intro i hi
  simp only [BitVec.getLsbD_reverse, BitVec.getLsbD_xor, BitVec.getMsbD_xor]

/-- The right-shifting form's polynomial is the normal form's, reversed (R131). -/
theorem crcPolynomial_reverse : crcPolynomial.reverse = crcReversedPolynomial := by decide

end Sys2Proof.Machine
end

