-- ==== Sys2Proof/Laws/Decode.lean ====
section
/-! SUPPORT. The opcode table, row by row, and the decoder on each kind of first byte. -/

namespace Sys2Proof

/-- No opcode selects two rows. -/
theorem opTable_disjoint :
    opTable.Pairwise fun r q => ∀ b : Byte, ¬ (r.hits b = true ∧ q.hits b = true) := by decide

/-- The reserved opcodes are 0x06 to 0xFF (R69). -/
theorem formOf_eq_none_iff : ∀ opcode : Byte, formOf opcode = none ↔ 6 ≤ opcode.toNat := by decide

/-- A row that is one byte long carries a command whose encoding is that byte. -/
theorem formOf_op8 {opcode : Byte} {i : Instr} (h : formOf opcode = some (.op8 i)) :
    encode i = [opcode] ∧ i.wf = true := by
  have key : ∀ b : Byte, (match formOf b with
      | some (.op8 j) => decide (encode j = [b] ∧ j.wf = true)
      | some .op8Len8Data => true
      | none => true) = true := by decide
  simpa [h] using key opcode

/-- The one row with operands is LOAD's. -/
theorem formOf_op8Len8Data : ∀ opcode : Byte, formOf opcode = some .op8Len8Data → opcode = 0x01 := by
  decide

@[simp] theorem decode_nil : decode [] = .incomplete := rfl
@[simp] theorem decode_reset (bytes : List Byte) : decode (0x00#8 :: bytes) = .command .reset bytes := rfl
@[simp] theorem decode_load (bytes : List Byte) : decode (0x01#8 :: bytes) = decodeLoad bytes := rfl
@[simp] theorem decode_finalize (bytes : List Byte) : decode (0x02#8 :: bytes) = .command .finalize bytes := rfl
@[simp] theorem decode_pull (bytes : List Byte) : decode (0x03#8 :: bytes) = .command .pull bytes := rfl
@[simp] theorem decode_pingRequest (bytes : List Byte) :
    decode (0x04#8 :: bytes) = .command .pingRequest bytes := rfl
@[simp] theorem decode_pingConfirm (bytes : List Byte) :
    decode (0x05#8 :: bytes) = .command .pingConfirm bytes := rfl

theorem decode_reserved {opcode : Byte} (h : 6 ≤ opcode.toNat) (bytes : List Byte) :
    decode (opcode :: bytes) = .invalid opcode := by
  simp [decode, (formOf_eq_none_iff opcode).mpr h]

/-- LOAD waits for its count. -/
@[simp] theorem decodeLoad_nil : decodeLoad [] = .incomplete := rfl

/-- LOAD waits for all its data. -/
theorem decodeLoad_short {n : Byte} {bytes : List Byte} (h : bytes.length < n.toNat) :
    decodeLoad (n :: bytes) = .incomplete := by
  simp [decodeLoad]; omega

/-- LOAD takes exactly N data bytes. -/
theorem decodeLoad_enough {n : Byte} {bytes : List Byte} (h : n.toNat ≤ bytes.length) :
    decodeLoad (n :: bytes) = .command (.load (bytes.take n.toNat)) (bytes.drop n.toNat) := by
  simp [decodeLoad, h]

end Sys2Proof
end

