-- ==== Sys2Proof/Laws/State.lean ====
section
/-! SUPPORT. What each operation of Machine/Ops.lean does to each field: one lemma per field per update, true by
unfolding, so that no later proof unfolds a record update. -/

namespace Sys2Proof.Machine.State

variable (s : State)

@[simp] theorem setLength_payload (n : BitVec 6) : (s.setLength n).payload = s.payload := rfl
@[simp] theorem setLength_length (n : BitVec 6) : (s.setLength n).length = n := rfl
@[simp] theorem setLength_cursor (n : BitVec 6) : (s.setLength n).cursor = s.cursor := rfl
@[simp] theorem setLength_escapePending (n : BitVec 6) : (s.setLength n).escapePending = s.escapePending := rfl
@[simp] theorem setLength_checksum (n : BitVec 6) : (s.setLength n).checksum = s.checksum := rfl
@[simp] theorem setLength_config (n : BitVec 6) : (s.setLength n).config = s.config := rfl
@[simp] theorem setLength_commandPort (n : BitVec 6) : (s.setLength n).commandPort = s.commandPort := rfl
@[simp] theorem setLength_responsePort (n : BitVec 6) : (s.setLength n).responsePort = s.responsePort := rfl

@[simp] theorem setCursor_payload (c : BitVec 6) : (s.setCursor c).payload = s.payload := rfl
@[simp] theorem setCursor_length (c : BitVec 6) : (s.setCursor c).length = s.length := rfl
@[simp] theorem setCursor_cursor (c : BitVec 6) : (s.setCursor c).cursor = c := rfl
@[simp] theorem setCursor_escapePending (c : BitVec 6) : (s.setCursor c).escapePending = s.escapePending := rfl
@[simp] theorem setCursor_checksum (c : BitVec 6) : (s.setCursor c).checksum = s.checksum := rfl
@[simp] theorem setCursor_config (c : BitVec 6) : (s.setCursor c).config = s.config := rfl
@[simp] theorem setCursor_commandPort (c : BitVec 6) : (s.setCursor c).commandPort = s.commandPort := rfl
@[simp] theorem setCursor_responsePort (c : BitVec 6) : (s.setCursor c).responsePort = s.responsePort := rfl

@[simp] theorem rewind_payload : s.rewind.payload = s.payload := rfl
@[simp] theorem rewind_length : s.rewind.length = s.length := rfl
@[simp] theorem rewind_cursor : s.rewind.cursor = 0 := rfl
@[simp] theorem rewind_escapePending : s.rewind.escapePending = s.escapePending := rfl
@[simp] theorem rewind_checksum : s.rewind.checksum = s.checksum := rfl
@[simp] theorem rewind_config : s.rewind.config = s.config := rfl
@[simp] theorem rewind_commandPort : s.rewind.commandPort = s.commandPort := rfl
@[simp] theorem rewind_responsePort : s.rewind.responsePort = s.responsePort := rfl

@[simp] theorem advance_payload : s.advance.payload = s.payload := rfl
@[simp] theorem advance_length : s.advance.length = s.length := rfl
@[simp] theorem advance_cursor : s.advance.cursor = s.cursor + 1 := rfl
@[simp] theorem advance_escapePending : s.advance.escapePending = s.escapePending := rfl
@[simp] theorem advance_checksum : s.advance.checksum = s.checksum := rfl
@[simp] theorem advance_config : s.advance.config = s.config := rfl
@[simp] theorem advance_commandPort : s.advance.commandPort = s.commandPort := rfl
@[simp] theorem advance_responsePort : s.advance.responsePort = s.responsePort := rfl

@[simp] theorem setEscapePending_payload (e : Bool) : (s.setEscapePending e).payload = s.payload := rfl
@[simp] theorem setEscapePending_length (e : Bool) : (s.setEscapePending e).length = s.length := rfl
@[simp] theorem setEscapePending_cursor (e : Bool) : (s.setEscapePending e).cursor = s.cursor := rfl
@[simp] theorem setEscapePending_escapePending (e : Bool) : (s.setEscapePending e).escapePending = e := rfl
@[simp] theorem setEscapePending_checksum (e : Bool) : (s.setEscapePending e).checksum = s.checksum := rfl
@[simp] theorem setEscapePending_config (e : Bool) : (s.setEscapePending e).config = s.config := rfl
@[simp] theorem setEscapePending_commandPort (e : Bool) : (s.setEscapePending e).commandPort = s.commandPort := rfl
@[simp] theorem setEscapePending_responsePort (e : Bool) : (s.setEscapePending e).responsePort = s.responsePort := rfl

@[simp] theorem setChecksum_payload (c : Word16) : (s.setChecksum c).payload = s.payload := rfl
@[simp] theorem setChecksum_length (c : Word16) : (s.setChecksum c).length = s.length := rfl
@[simp] theorem setChecksum_cursor (c : Word16) : (s.setChecksum c).cursor = s.cursor := rfl
@[simp] theorem setChecksum_escapePending (c : Word16) : (s.setChecksum c).escapePending = s.escapePending := rfl
@[simp] theorem setChecksum_checksum (c : Word16) : (s.setChecksum c).checksum = c := rfl
@[simp] theorem setChecksum_config (c : Word16) : (s.setChecksum c).config = s.config := rfl
@[simp] theorem setChecksum_commandPort (c : Word16) : (s.setChecksum c).commandPort = s.commandPort := rfl
@[simp] theorem setChecksum_responsePort (c : Word16) : (s.setChecksum c).responsePort = s.responsePort := rfl

@[simp] theorem setPayload_payload (p : Payload) : (s.setPayload p).payload = p := rfl
@[simp] theorem setPayload_length (p : Payload) : (s.setPayload p).length = s.length := rfl
@[simp] theorem setPayload_cursor (p : Payload) : (s.setPayload p).cursor = s.cursor := rfl
@[simp] theorem setPayload_escapePending (p : Payload) : (s.setPayload p).escapePending = s.escapePending := rfl
@[simp] theorem setPayload_checksum (p : Payload) : (s.setPayload p).checksum = s.checksum := rfl
@[simp] theorem setPayload_config (p : Payload) : (s.setPayload p).config = s.config := rfl
@[simp] theorem setPayload_commandPort (p : Payload) : (s.setPayload p).commandPort = s.commandPort := rfl
@[simp] theorem setPayload_responsePort (p : Payload) : (s.setPayload p).responsePort = s.responsePort := rfl

@[simp] theorem storePayload_payload (d : List Byte) : (s.storePayload d).payload = Payload.store s.payload d := rfl
@[simp] theorem storePayload_length (d : List Byte) : (s.storePayload d).length = s.length := rfl
@[simp] theorem storePayload_cursor (d : List Byte) : (s.storePayload d).cursor = s.cursor := rfl
@[simp] theorem storePayload_escapePending (d : List Byte) : (s.storePayload d).escapePending = s.escapePending := rfl
@[simp] theorem storePayload_checksum (d : List Byte) : (s.storePayload d).checksum = s.checksum := rfl
@[simp] theorem storePayload_config (d : List Byte) : (s.storePayload d).config = s.config := rfl
@[simp] theorem storePayload_commandPort (d : List Byte) : (s.storePayload d).commandPort = s.commandPort := rfl
@[simp] theorem storePayload_responsePort (d : List Byte) : (s.storePayload d).responsePort = s.responsePort := rfl

@[simp] theorem respond_payload (r : Response) : (s.respond r).payload = s.payload := rfl
@[simp] theorem respond_length (r : Response) : (s.respond r).length = s.length := rfl
@[simp] theorem respond_cursor (r : Response) : (s.respond r).cursor = s.cursor := rfl
@[simp] theorem respond_escapePending (r : Response) : (s.respond r).escapePending = s.escapePending := rfl
@[simp] theorem respond_checksum (r : Response) : (s.respond r).checksum = s.checksum := rfl
@[simp] theorem respond_config (r : Response) : (s.respond r).config = s.config := rfl
@[simp] theorem respond_commandPort (r : Response) : (s.respond r).commandPort = s.commandPort := rfl
@[simp] theorem respond_responsePort (r : Response) : (s.respond r).responsePort = s.responsePort ++ [r] := rfl

@[simp] theorem reject_payload (e : ErrorKind) : (s.reject e).payload = s.payload := rfl
@[simp] theorem reject_length (e : ErrorKind) : (s.reject e).length = s.length := rfl
@[simp] theorem reject_cursor (e : ErrorKind) : (s.reject e).cursor = s.cursor := rfl
@[simp] theorem reject_escapePending (e : ErrorKind) : (s.reject e).escapePending = s.escapePending := rfl
@[simp] theorem reject_checksum (e : ErrorKind) : (s.reject e).checksum = s.checksum := rfl
@[simp] theorem reject_config (e : ErrorKind) : (s.reject e).config = s.config := rfl
@[simp] theorem reject_commandPort (e : ErrorKind) : (s.reject e).commandPort = s.commandPort := rfl
@[simp] theorem reject_responsePort (e : ErrorKind) : (s.reject e).responsePort = s.responsePort ++ [.error e] := rfl

@[simp] theorem setCommandPort_payload (bytes : List Byte) : (s.setCommandPort bytes).payload = s.payload := rfl
@[simp] theorem setCommandPort_length (bytes : List Byte) : (s.setCommandPort bytes).length = s.length := rfl
@[simp] theorem setCommandPort_cursor (bytes : List Byte) : (s.setCommandPort bytes).cursor = s.cursor := rfl
@[simp] theorem setCommandPort_escapePending (bytes : List Byte) : (s.setCommandPort bytes).escapePending = s.escapePending := rfl
@[simp] theorem setCommandPort_checksum (bytes : List Byte) : (s.setCommandPort bytes).checksum = s.checksum := rfl
@[simp] theorem setCommandPort_config (bytes : List Byte) : (s.setCommandPort bytes).config = s.config := rfl
@[simp] theorem setCommandPort_commandPort (bytes : List Byte) : (s.setCommandPort bytes).commandPort = bytes := rfl
@[simp] theorem setCommandPort_responsePort (bytes : List Byte) : (s.setCommandPort bytes).responsePort = s.responsePort := rfl

@[simp] theorem deliver_payload (bytes : List Byte) : (s.deliver bytes).payload = s.payload := rfl
@[simp] theorem deliver_length (bytes : List Byte) : (s.deliver bytes).length = s.length := rfl
@[simp] theorem deliver_cursor (bytes : List Byte) : (s.deliver bytes).cursor = s.cursor := rfl
@[simp] theorem deliver_escapePending (bytes : List Byte) : (s.deliver bytes).escapePending = s.escapePending := rfl
@[simp] theorem deliver_checksum (bytes : List Byte) : (s.deliver bytes).checksum = s.checksum := rfl
@[simp] theorem deliver_config (bytes : List Byte) : (s.deliver bytes).config = s.config := rfl
@[simp] theorem deliver_commandPort (bytes : List Byte) : (s.deliver bytes).commandPort = s.commandPort ++ bytes := rfl
@[simp] theorem deliver_responsePort (bytes : List Byte) : (s.deliver bytes).responsePort = s.responsePort := rfl

end Sys2Proof.Machine.State
end

