-- ==== Sys2Proof/Laws/Ops.lean ====
section
/-! SUPPORT. What the shared operations over the payload buffer, the counts and the ports do, and what they leave
alone. -/

namespace Sys2Proof.Machine

/-! ## Reading the buffer after a register write -/

section Reads

variable (s : State) (i : Nat)

@[simp] theorem State.setCursor_readByte (c : BitVec 6) : (s.setCursor c).readByte i = s.readByte i := rfl
@[simp] theorem State.rewind_readByte : s.rewind.readByte i = s.readByte i := rfl
@[simp] theorem State.advance_readByte : s.advance.readByte i = s.readByte i := rfl
@[simp] theorem State.setEscapePending_readByte (e : Bool) : (s.setEscapePending e).readByte i = s.readByte i := rfl
@[simp] theorem State.setChecksum_readByte (c : Word16) : (s.setChecksum c).readByte i = s.readByte i := rfl
@[simp] theorem State.respond_readByte (r : Response) : (s.respond r).readByte i = s.readByte i := rfl
@[simp] theorem State.reject_readByte (e : ErrorKind) : (s.reject e).readByte i = s.readByte i := rfl
@[simp] theorem State.setCommandPort_readByte (bytes : List Byte) : (s.setCommandPort bytes).readByte i = s.readByte i := rfl
@[simp] theorem State.deliver_readByte (bytes : List Byte) : (s.deliver bytes).readByte i = s.readByte i := rfl
@[simp] theorem State.setLength_readByte (n : BitVec 6) : (s.setLength n).readByte i = s.readByte i := rfl

@[simp] theorem State.setCursor_loaded (c : BitVec 6) : (s.setCursor c).loaded = s.loaded := rfl
@[simp] theorem State.rewind_loaded : s.rewind.loaded = s.loaded := rfl
@[simp] theorem State.advance_loaded : s.advance.loaded = s.loaded := rfl
@[simp] theorem State.setEscapePending_loaded (e : Bool) : (s.setEscapePending e).loaded = s.loaded := rfl
@[simp] theorem State.setChecksum_loaded (c : Word16) : (s.setChecksum c).loaded = s.loaded := rfl
@[simp] theorem State.respond_loaded (r : Response) : (s.respond r).loaded = s.loaded := rfl
@[simp] theorem State.reject_loaded (e : ErrorKind) : (s.reject e).loaded = s.loaded := rfl
@[simp] theorem State.setCommandPort_loaded (bytes : List Byte) : (s.setCommandPort bytes).loaded = s.loaded := rfl
@[simp] theorem State.deliver_loaded (bytes : List Byte) : (s.deliver bytes).loaded = s.loaded := rfl

end Reads

/-! ## The payload buffer -/

/-- The stored bytes read back. -/
theorem Payload.store_getElem?_of_lt (p : Payload) (d : List Byte) {k : Nat} (hk : k < d.length)
    (h : d.length ≤ 32) : (Payload.store p d)[k]? = d[k]? := by
  have h32 : k < 32 := by omega
  simp [Payload.store, h32, hk]

/-- The other entries keep their bytes. -/
theorem Payload.store_getElem?_of_le (p : Payload) (d : List Byte) {k : Nat} (hk : d.length ≤ k) :
    (Payload.store p d)[k]? = p[k]? := by
  by_cases h32 : k < 32
  · simp [Payload.store, h32, List.getElem?_eq_none hk]
  · simp [h32]

/-- The first entries of the buffer are the stored bytes. -/
theorem Payload.store_take (p : Payload) (d : List Byte) (h : d.length ≤ 32) :
    (Payload.store p d).toList.take d.length = d := by
  apply List.ext_getElem
  · simp; omega
  · intro i _ hi
    simp [Payload.store, hi]

/-- Storing the same bytes again changes nothing. -/
theorem Payload.store_store (p : Payload) (d : List Byte) :
    Payload.store (Payload.store p d) d = Payload.store p d := by
  apply Vector.ext
  intro i hi
  by_cases h : i < d.length
  · simp [Payload.store, h]
  · simp [Payload.store, List.getElem?_eq_none (Nat.le_of_not_lt h)]

/-- A byte of the buffer exists at every index below 32. -/
theorem State.readByte_isSome (s : State) {i : Nat} (h : i < 32) : ∃ b, s.readByte i = some b :=
  ⟨s.payload[i], by simp [State.readByte, h]⟩

/-- A byte at an index below `length` is the entry of `loaded` at that index. -/
theorem State.loaded_getElem? (s : State) {i : Nat} (h : i < s.length.toNat) :
    s.loaded[i]? = s.readByte i := by
  by_cases h32 : i < 32
  · simp [State.loaded, State.readByte, h, h32]
  · simp [State.loaded, State.readByte, h32]

/-- `loaded` has `length` bytes wherever I-LEN holds. -/
theorem State.loaded_length (s : State) (h : s.length.toNat ≤ 32) : s.loaded.length = s.length.toNat := by
  simp [State.loaded]; omega

/-- FINALIZE's read succeeds wherever I-LEN holds. -/
theorem State.readLoaded_eq (s : State) (h : s.length.toNat ≤ 32) : s.readLoaded = some s.loaded := by
  simp [State.readLoaded, h]

/-! ## LOAD's operands and effect -/

/-- The count of an accepted LOAD is held without loss. -/
theorem countOf_toNat {d : List Byte} (h : d.length ≤ 32) : (countOf d).toNat = d.length := by
  simp [countOf]; omega

theorem accepts_iff (d : List Byte) : accepts d = true ↔ d.length ≤ 32 := by simp [accepts]

section Load

variable (s : State) (d : List Byte)

@[simp] theorem State.loadPayload_payload : (s.loadPayload d).payload = Payload.store s.payload d := rfl
@[simp] theorem State.loadPayload_length : (s.loadPayload d).length = countOf d := rfl
@[simp] theorem State.loadPayload_cursor : (s.loadPayload d).cursor = 0 := rfl
@[simp] theorem State.loadPayload_escapePending : (s.loadPayload d).escapePending = s.escapePending := rfl
@[simp] theorem State.loadPayload_checksum : (s.loadPayload d).checksum = s.checksum := rfl
@[simp] theorem State.loadPayload_config : (s.loadPayload d).config = s.config := rfl
@[simp] theorem State.loadPayload_commandPort : (s.loadPayload d).commandPort = s.commandPort := rfl
@[simp] theorem State.loadPayload_responsePort : (s.loadPayload d).responsePort = s.responsePort := rfl

/-- What an accepted LOAD leaves loaded is its data. -/
theorem State.loadPayload_loaded {d : List Byte} (h : d.length ≤ 32) : (s.loadPayload d).loaded = d := by
  simp [State.loaded, countOf_toNat h, Payload.store_take _ _ h]

end Load

/-! ## The ports -/

/-- A response adds its bytes at the end of what the caller reads. -/
theorem State.respond_responseBytes (s : State) (r : Response) :
    (s.respond r).responseBytes = s.responseBytes ++ encodeResponse r := by
  simp [State.responseBytes]

/-- The last response is the one just given. -/
@[simp] theorem State.respond_getLast? (s : State) (r : Response) :
    (s.respond r).responsePort.getLast? = some r := by simp

/-- Bytes delivered in two pieces are the bytes delivered at once. -/
theorem State.deliver_deliver (s : State) (x y : List Byte) : (s.deliver x).deliver y = s.deliver (x ++ y) := by
  simp [State.deliver, State.setCommandPort]

end Sys2Proof.Machine
end

