-- ==== Sys2Proof/Laws/Operands.lean ====
section
/-! SUPPORT. The frame position and the body byte of PULL, case by case. -/

namespace Sys2Proof.Machine

/-- Where in the frame a cursor stands: the one lemma that later proofs split on. -/
theorem position_cases (c n : Nat) :
    (c = 0 ∧ position c n = .start) ∨
    (1 ≤ c ∧ c ≤ n ∧ position c n = .payload (c - 1)) ∨
    (c = n + 1 ∧ position c n = .checksumHigh) ∨
    (c = n + 2 ∧ position c n = .checksumLow) ∨
    (c = n + 3 ∧ position c n = .endDelimiter) ∨
    (n + 3 < c ∧ position c n = .done) := by
  unfold position
  split
  · exact .inl ⟨‹_›, rfl⟩
  split
  · exact .inr (.inl ⟨by omega, ‹_›, rfl⟩)
  split
  · exact .inr (.inr (.inl ⟨‹_›, rfl⟩))
  split
  · exact .inr (.inr (.inr (.inl ⟨‹_›, rfl⟩)))
  split
  · exact .inr (.inr (.inr (.inr (.inl ⟨‹_›, rfl⟩))))
  · exact .inr (.inr (.inr (.inr (.inr ⟨by omega, rfl⟩))))

/-- The byte at body position `c` of a frame is the entry `c - 1` of its body. -/
theorem State.bodyByte_eq (s : State) (h : s.length.toNat ≤ 32) (h1 : 1 ≤ s.cursor.toNat)
    (h2 : s.cursor.toNat ≤ s.length.toNat + 2) :
    s.bodyByte = (s.loaded ++ [highByte s.checksum, lowByte s.checksum])[s.cursor.toNat - 1]? := by
  have hl := s.loaded_length h
  unfold State.bodyByte State.position
  obtain ⟨hc, -⟩ | ⟨-, hn, hp⟩ | ⟨hc, hp⟩ | ⟨hc, hp⟩ | ⟨hc, -⟩ | ⟨hc, -⟩ :=
    position_cases s.cursor.toNat s.length.toNat
  · omega
  · rw [hp, List.getElem?_append_left (by omega), State.loaded_getElem? s (by omega)]
  · rw [hp, List.getElem?_append_right (by omega), hl, hc]; simp
  · rw [hp, List.getElem?_append_right (by omega), hl, hc]; simp
  · omega
  · omega

section Frames

variable (s : State)

@[simp] theorem State.respond_position (r : Response) : (s.respond r).position = s.position := rfl
@[simp] theorem State.respond_bodyByte (r : Response) : (s.respond r).bodyByte = s.bodyByte := rfl
@[simp] theorem State.setEscapePending_position (e : Bool) : (s.setEscapePending e).position = s.position := rfl
@[simp] theorem State.setEscapePending_bodyByte (e : Bool) : (s.setEscapePending e).bodyByte = s.bodyByte := rfl
@[simp] theorem State.setCommandPort_position (x : List Byte) : (s.setCommandPort x).position = s.position := rfl
@[simp] theorem State.setCommandPort_bodyByte (x : List Byte) : (s.setCommandPort x).bodyByte = s.bodyByte := rfl

@[simp] theorem State.setPayload_position (p : Payload) : (s.setPayload p).position = s.position := rfl

end Frames

end Sys2Proof.Machine
end

