-- ==== Sys2Proof/Laws/Flags.lean ====
section
/-! SUPPORT. The escape step, case by case, and what it leaves alone. -/

namespace Sys2Proof.Machine

/-- `escapeOf` has a value exactly on the reserved bytes. -/
theorem escapeOf_isSome (b : Byte) : (escapeOf b).isSome = isReserved b := by
  unfold escapeOf isReserved
  split
  · simp [*]
  split <;> simp [*]

theorem escapeOf_eq_none_iff (b : Byte) : escapeOf b = none ↔ isReserved b = false := by
  rw [← escapeOf_isSome]; cases escapeOf b <;> simp

/-- The two bytes an escape sequence can end in. -/
theorem escapeOf_some {b t : Byte} (h : escapeOf b = some t) :
    (b = frameEnd ∧ t = escapeEnd) ∨ (b = escapePrefix ∧ t = escapeEscape) := by
  unfold escapeOf at h
  split at h
  · exact .inl ⟨‹_›, by simpa using h.symm⟩
  split at h
  · exact .inr ⟨‹_›, by simpa using h.symm⟩
  · cases h

section Step

variable (s : State) {b t : Byte}

theorem State.escapeStep_plain (h : escapeOf b = none) : s.escapeStep b = s.advance.respond (.byte b) := by
  simp [State.escapeStep, h]

theorem State.escapeStep_prefix (h : escapeOf b = some t) (hf : s.escapePending = false) :
    s.escapeStep b = (s.setEscapePending true).respond (.byte escapePrefix) := by
  simp [State.escapeStep, h, hf]

theorem State.escapeStep_transformed (h : escapeOf b = some t) (hf : s.escapePending = true) :
    s.escapeStep b = ((s.setEscapePending false).advance).respond (.byte t) := by
  simp [State.escapeStep, h, hf]

/-- The three things an escape step can do. -/
theorem State.escapeStep_cases (b : Byte) :
    (escapeOf b = none ∧ s.escapeStep b = s.advance.respond (.byte b)) ∨
    (∃ t, escapeOf b = some t ∧ s.escapePending = false ∧
      s.escapeStep b = (s.setEscapePending true).respond (.byte escapePrefix)) ∨
    (∃ t, escapeOf b = some t ∧ s.escapePending = true ∧
      s.escapeStep b = ((s.setEscapePending false).advance).respond (.byte t)) := by
  cases h : escapeOf b with
  | none => exact .inl ⟨rfl, s.escapeStep_plain h⟩
  | some t =>
    cases hf : s.escapePending
    · exact .inr (.inl ⟨t, rfl, rfl, s.escapeStep_prefix h hf⟩)
    · exact .inr (.inr ⟨t, rfl, rfl, s.escapeStep_transformed h hf⟩)

/-- The escape step reads the byte it is given, not the buffer. -/
theorem State.setPayload_escapeStep (p : Payload) (b : Byte) :
    (s.setPayload p).escapeStep b = (s.escapeStep b).setPayload p := by
  obtain ⟨h, hs⟩ | ⟨t, h, hf, hs⟩ | ⟨t, h, hf, hs⟩ := s.escapeStep_cases b <;> rw [hs]
  · rw [State.escapeStep_plain (s.setPayload p) h]; rfl
  · rw [State.escapeStep_prefix (s.setPayload p) h hf]; rfl
  · rw [State.escapeStep_transformed (s.setPayload p) h hf]; rfl

end Step

end Sys2Proof.Machine
end

