-- ==== Sys2Proof/Laws/Exec.lean ====
section
/-! SUPPORT. One lemma for each meaning that says everything it can do; later proofs cite these and do not unfold the
meanings. -/

namespace Sys2Proof.Machine

section Exec

variable (s : State)

/-! ## The control commands -/

theorem exec_reset : exec .reset s =
    .next ((((s.setCursor 0).setLength 0).setEscapePending s.escapeAfterReset).respond .ack) := rfl

theorem exec_load_accepted {d : List Byte} (h : d.length ≤ 32) :
    exec (.load d) s = .next ((s.loadPayload d).respond .ack) := by
  simp [exec, execLoad, accepts, h]

theorem exec_load_rejected {d : List Byte} (h : 32 < d.length) :
    exec (.load d) s = .next (s.reject .bufferOverflow) := by
  have h' : ¬ d.length ≤ 32 := by omega
  simp [exec, execLoad, accepts, h']

theorem exec_finalize (h : s.length.toNat ≤ 32) : exec .finalize s =
    .next (((s.setChecksum (crc16X25 s.loaded)).rewind).respond .ack) := by
  simp [exec, execFinalize, s.readLoaded_eq h]

theorem exec_finalize_fault (h : 32 < s.length.toNat) : exec .finalize s = .fault .noSuchPayloadByte := by
  have h' : ¬ s.length.toNat ≤ 32 := by omega
  simp [exec, execFinalize, State.readLoaded, h']

/-- Everything a LOAD can do. -/
theorem exec_load_cases (d : List Byte) :
    (d.length ≤ 32 ∧ exec (.load d) s = .next ((s.loadPayload d).respond .ack)) ∨
    (32 < d.length ∧ exec (.load d) s = .next (s.reject .bufferOverflow)) := by
  obtain h | h := Nat.lt_or_ge 32 d.length
  · exact .inr ⟨h, exec_load_rejected s h⟩
  · exact .inl ⟨h, exec_load_accepted s h⟩

/-- A FINALIZE that answers a next state had a `length` within the buffer. -/
theorem exec_finalize_next {s t : State} (h : exec .finalize s = .next t) :
    s.length.toNat ≤ 32 ∧ t = ((s.setChecksum (crc16X25 s.loaded)).rewind).respond .ack := by
  obtain hl | hl := Nat.lt_or_ge 32 s.length.toNat
  · rw [exec_finalize_fault s hl] at h
    cases h
  · rw [exec_finalize s hl] at h
    exact ⟨hl, (Host.Outcome.next.inj h).symm⟩

theorem exec_pingRequest : exec .pingRequest s = .next (s.ping pingRequestCode) := rfl

theorem exec_pingConfirm : exec .pingConfirm s = .next (s.ping pingConfirmCode) := rfl

/-! ## PULL, by position -/

theorem exec_pull_start (h : s.position = .start) : exec .pull s = .next s.pullStart := by
  simp [exec, execPull, h]

theorem exec_pull_end (h : s.position = .endDelimiter) : exec .pull s = .next s.pullEnd := by
  simp [exec, execPull, h]

theorem exec_pull_done (h : s.position = .done) : exec .pull s = .next s.pullDone := by
  simp [exec, execPull, h]

/-- At a body position the escape step runs on the body byte. -/
theorem exec_pull_body {b : Byte} (h : s.bodyByte = some b) : exec .pull s = .next (s.escapeStep b) := by
  unfold State.bodyByte at h
  cases hp : s.position <;> simp only [hp, reduceCtorEq] at h <;>
    simp [exec, execPull, State.pullBody, State.bodyByte, hp, h]

/-- Everything a PULL can do. -/
theorem exec_pull_cases :
    (s.cursor.toNat = 0 ∧ exec .pull s = .next s.pullStart) ∨
    (1 ≤ s.cursor.toNat ∧ s.cursor.toNat ≤ s.length.toNat + 2 ∧
      ((∃ b, s.bodyByte = some b ∧ exec .pull s = .next (s.escapeStep b)) ∨
        (s.bodyByte = none ∧ 32 < s.length.toNat ∧ exec .pull s = .fault .noSuchPayloadByte))) ∨
    (s.cursor.toNat = s.length.toNat + 3 ∧ exec .pull s = .next s.pullEnd) ∨
    (s.length.toNat + 3 < s.cursor.toNat ∧ exec .pull s = .next s.pullDone) := by
  obtain ⟨hc, hp⟩ | ⟨h1, hn, hp⟩ | ⟨hc, hp⟩ | ⟨hc, hp⟩ | ⟨hc, hp⟩ | ⟨hc, hp⟩ :=
    position_cases s.cursor.toNat s.length.toNat
  · exact .inl ⟨hc, exec_pull_start s hp⟩
  · refine .inr (.inl ⟨h1, by omega, ?_⟩)
    have hb : s.bodyByte = s.readByte (s.cursor.toNat - 1) := by simp [State.bodyByte, State.position, hp]
    cases hr : s.readByte (s.cursor.toNat - 1) with
    | some b => exact .inl ⟨b, hb.trans hr, exec_pull_body s (hb.trans hr)⟩
    | none =>
      refine .inr ⟨hb.trans hr, ?_, ?_⟩
      · by_contra hlt
        obtain ⟨b, hb'⟩ := s.readByte_isSome (i := s.cursor.toNat - 1) (by omega)
        simp [hr] at hb'
      · simp [exec, execPull, State.pullBody, State.position, hp, hb.trans hr]
  · have hb : s.bodyByte = some (highByte s.checksum) := by simp [State.bodyByte, State.position, hp]
    exact .inr (.inl ⟨by omega, by omega, .inl ⟨_, hb, exec_pull_body s hb⟩⟩)
  · have hb : s.bodyByte = some (lowByte s.checksum) := by simp [State.bodyByte, State.position, hp]
    exact .inr (.inl ⟨by omega, by omega, .inl ⟨_, hb, exec_pull_body s hb⟩⟩)
  · exact .inr (.inr (.inl ⟨hc, exec_pull_end s hp⟩))
  · exact .inr (.inr (.inr ⟨hc, exec_pull_done s hp⟩))

end Exec

/-! ## Sequences of commands -/

@[simp] theorem andThen_next (s : State) (f : State → Host.Outcome State Fault Refusal) :
    andThen (.next s) f = f s := rfl

@[simp] theorem execAll_nil (s : State) : execAll [] s = .next s := rfl

theorem execAll_cons (i : Instr) (is : List Instr) (s : State) :
    execAll (i :: is) s = andThen (exec i s) (execAll is) := rfl

/-- A sequence goes on from where its first part ends. -/
theorem execAll_append (is js : List Instr) (s : State) :
    execAll (is ++ js) s = andThen (execAll is s) (execAll js) := by
  induction is generalizing s with
  | nil => rfl
  | cons i is ih =>
    rw [List.cons_append, execAll_cons, execAll_cons]
    cases exec i s with
    | next t => exact ih t
    | fault f => rfl
    | refused r => rfl

end Sys2Proof.Machine
end

