-- ==== Sys2Proof/Laws/PerInstr.lean ====
section
/-! SUPPORT. Statements about every instruction as syntax, one lemma per constructor: the family CommandLength. -/

namespace Sys2Proof.Laws.CommandLength

/-- The length that the decoder learns from byte 0, and from byte 1 for LOAD, is the length of the encoding
(30_encoding.md R64). -/
def Statement (i : Instr) : Prop :=
  i.wf = true → ∀ next : Byte,
    (encode i).length = commandLength (opcodeOf i) ((operandBytes i).headD next)

theorem reset : Statement .reset := fun _ _ => rfl

theorem load (data : List Byte) : Statement (.load data) := fun h _ => by
  have hd : data.length ≤ 255 := by simpa [Instr.wf] using h
  have hf : formOf 0x01#8 = some .op8Len8Data := rfl
  simp [encode, opcodeOf, operandBytes, commandLength, hf]
  omega

theorem finalize : Statement .finalize := fun _ _ => rfl

theorem pull : Statement .pull := fun _ _ => rfl

theorem pingRequest : Statement .pingRequest := fun _ _ => rfl

theorem pingConfirm : Statement .pingConfirm := fun _ _ => rfl

end Sys2Proof.Laws.CommandLength
end

