-- ==== Sys2Proof/Laws/Sequencing.lean ====
section
/-! SUPPORT. The caller's obligations, case by case, and how a well-sequenced stream comes apart. -/

namespace Sys2Proof.Machine

/-! ## LOAD, accepted and rejected -/

theorem accepts_of_le {d : List Byte} (h : d.length ≤ 32) : accepts d = true := decide_eq_true h

theorem accepts_of_gt {d : List Byte} (h : 32 < d.length) : accepts d = false := decide_eq_false (Nat.not_le.mpr h)

/-- An accepted LOAD needs the flag down. -/
theorem keepsEscapeRule_load_accepted {d : List Byte} (h : d.length ≤ 32) (s : State) :
    keepsEscapeRule (.load d) s = !s.escapePending := by
  simp [keepsEscapeRule, accepts_of_le h]

/-- A rejected LOAD keeps obligation 2 in every state. -/
theorem keepsEscapeRule_load_rejected {d : List Byte} (h : 32 < d.length) (s : State) :
    keepsEscapeRule (.load d) s = true := by
  simp [keepsEscapeRule, accepts_of_gt h]

@[simp] theorem loadWaits_load_accepted {d : List Byte} (h : d.length ≤ 32) (waiting : Bool) :
    loadWaits waiting (.load d) = true := by
  simp [loadWaits, accepts_of_le h]

@[simp] theorem loadWaits_load_rejected {d : List Byte} (h : 32 < d.length) (waiting : Bool) :
    loadWaits waiting (.load d) = waiting := by
  simp [loadWaits, accepts_of_gt h]

/-! ## Streams -/

/-- A well-sequenced stream whose first command completes: that command keeps both obligations, and the rest is
well-sequenced from where it ends. -/
theorem wellSequenced_cons {i : Instr} {s t : State} (h : exec i s = .next t) (waiting : Bool) (is : List Instr) :
    wellSequenced waiting (i :: is) s =
      (keepsFinalizeRule waiting i && keepsEscapeRule i s && wellSequenced (loadWaits waiting i) is t) := by
  rw [wellSequenced, h]

/-- The rest of a well-sequenced stream is well-sequenced from where its first part ends. -/
theorem wellSequenced_rest {is js : List Instr} {waiting : Bool} {s t : State}
    (h : wellSequenced waiting (is ++ js) s = true) (he : execAll is s = .next t) :
    wellSequenced (is.foldl loadWaits waiting) js t = true := by
  induction is generalizing waiting s with
  | nil =>
    cases he
    exact h
  | cons i is ih =>
    rw [execAll_cons] at he
    cases hx : exec i s with
    | fault f => simp [hx, andThen] at he
    | refused r => simp [hx, andThen] at he
    | next u =>
      rw [hx, andThen_next] at he
      rw [List.cons_append, wellSequenced_cons hx, Bool.and_eq_true] at h
      exact ih h.2 he

/-- Every command that rewinds, where it keeps obligation 2, leaves the cursor at the start and the flag down: the
state from which R109 gives a frame. -/
theorem rewinds_of_keepsEscapeRule {i : Instr} {s t : State} (hp : i ≠ .pull)
    (hd : ∀ d, i = .load d → d.length ≤ 32) (hk : keepsEscapeRule i s = true) (h : exec i s = .next t) :
    t.cursor = 0 ∧ t.escapePending = false := by
  cases i with
  | reset =>
    obtain rfl := Host.Outcome.next.inj h
    cases hc : s.config.resetClearsEsc <;> simp_all [keepsEscapeRule, State.escapeAfterReset]
  | load d =>
    rw [exec_load_accepted s (hd d rfl)] at h
    rw [keepsEscapeRule_load_accepted (hd d rfl)] at hk
    obtain rfl := Host.Outcome.next.inj h
    simpa using hk
  | finalize =>
    obtain ⟨-, rfl⟩ := exec_finalize_next h
    simpa [keepsEscapeRule] using hk
  | pull => exact absurd rfl hp
  | pingRequest =>
    obtain rfl := Host.Outcome.next.inj h
    simpa [State.ping, keepsEscapeRule] using hk
  | pingConfirm =>
    obtain rfl := Host.Outcome.next.inj h
    simpa [State.ping, keepsEscapeRule] using hk

end Sys2Proof.Machine
end

