-- ==== Sys2Proof/Laws/Step.lean ====
section
/-! SUPPORT. What a step does for each verdict of the decoder, and how a run goes on. -/

namespace Sys2Proof.Machine

/-- Everything a step can do. -/
theorem step_cases (s : State) :
    (∃ i rest, s.fetch = .command i rest ∧ step s = exec i (s.setCommandPort rest)) ∨
    (∃ opcode, s.fetch = .invalid opcode ∧ step s = .refused (.reservedOpcode opcode)) ∨
    (s.fetch = .incomplete ∧ step s = .next s) := by
  unfold step
  cases h : s.fetch with
  | command i rest => exact .inl ⟨i, rest, rfl, rfl⟩
  | invalid opcode => exact .inr (.inl ⟨opcode, rfl, rfl⟩)
  | incomplete => exact .inr (.inr ⟨rfl, rfl⟩)

theorem step_of_incomplete {s : State} (h : decode s.commandPort = .incomplete) : step s = .next s := by
  simp [step, State.fetch, h, State.idle]

/-- `runSteps` is the run of the machine that the host holds. -/
theorem core_run_eq (k : Nat) (s : State) : core.run k s = runSteps k s := by
  induction k generalizing s with
  | zero => rfl
  | succ k ih =>
    cases h : step s with
    | next t =>
      simp only [Host.Core.run, show core.step s = .next t from h, runSteps, h, andThen_next]
      exact ih t
    | fault r => simp only [Host.Core.run, show core.step s = .fault r from h, runSteps, h]; rfl
    | refused r => simp only [Host.Core.run, show core.step s = .refused r from h, runSteps, h]; rfl

@[simp] theorem runSteps_zero (s : State) : runSteps 0 s = .next s := rfl

/-- One more step of a run. -/
theorem runSteps_succ (k : Nat) (s : State) : runSteps (k + 1) s = andThen (step s) (runSteps k) := rfl

/-- A command reads and writes nothing on the command port: it does the same whatever waits there. -/
theorem exec_setCommandPort (i : Instr) (s : State) (bytes : List Byte) :
    exec i (s.setCommandPort bytes) = andThen (exec i s) (fun t => .next (t.setCommandPort bytes)) := by
  cases i with
  | reset => rfl
  | load d =>
    by_cases h : d.length ≤ 32
    · simp only [exec_load_accepted _ h]; rfl
    · simp only [exec_load_rejected _ (Nat.lt_of_not_le h)]; rfl
  | finalize =>
    by_cases h : s.length.toNat ≤ 32
    · rw [exec_finalize s h, exec_finalize _ (by simpa using h)]; rfl
    · rw [exec_finalize_fault s (Nat.lt_of_not_le h),
        exec_finalize_fault _ (by simpa using Nat.lt_of_not_le h)]; rfl
  | pull =>
    show execPull _ = andThen (execPull s) _
    unfold execPull State.pullBody
    rw [State.setCommandPort_position, State.setCommandPort_bodyByte]
    cases s.position <;> cases s.bodyByte <;> try rfl
    all_goals
      simp only [andThen_next, State.escapeStep]
      split <;> try rfl
      cases h : s.escapePending <;> simp [h] <;> rfl
  | pingRequest => rfl
  | pingConfirm => rfl

end Sys2Proof.Machine
end

