-- ==== Sys2Proof/Laws/Wire.lean ====
section
/-! SUPPORT. The wire format: spellings of body bytes, and the bytes that one PULL takes off what remains of a frame. -/

namespace Sys2Proof.Machine

/-! ## Spellings -/

theorem escape_of_some {b t : Byte} (h : escapeOf b = some t) : escape b = [escapePrefix, t] := by
  simp [escape, h]

theorem escape_of_none {b : Byte} (h : escapeOf b = none) : escape b = [b] := by simp [escape, h]

@[simp] theorem staleBody_nil (stale : Bool) : staleBody stale [] = [] := rfl

theorem staleBody_plain (stale : Bool) {b : Byte} (bs : List Byte) (h : escapeOf b = none) :
    staleBody stale (b :: bs) = b :: staleBody stale bs := by simp [staleBody, h]

theorem staleBody_up {b t : Byte} (bs : List Byte) (h : escapeOf b = some t) :
    staleBody true (b :: bs) = t :: staleBody false bs := by simp [staleBody, h]

theorem staleBody_down {b t : Byte} (bs : List Byte) (h : escapeOf b = some t) :
    staleBody false (b :: bs) = escapePrefix :: t :: staleBody false bs := by simp [staleBody, h]

/-- With the flag down the body is spelled byte by byte (R124). -/
theorem staleBody_false (bs : List Byte) : staleBody false bs = bs.flatMap escape := by
  induction bs with
  | nil => rfl
  | cons b bs ih =>
    cases h : escapeOf b with
    | none => rw [staleBody_plain _ _ h, List.flatMap_cons, escape_of_none h, ih]; rfl
    | some t => rw [staleBody_down _ h, List.flatMap_cons, escape_of_some h, ih]; rfl

/-- A reserved byte is one that `escapeOf` transforms. -/
theorem isReserved_of_some {b t : Byte} (h : escapeOf b = some t) : isReserved b = true := by
  rw [← escapeOf_isSome, h]; rfl

theorem frameBody_length (d : List Byte) (c : Word16) : (frameBody d c).length = d.length + 2 := by
  simp [frameBody]

/-! ## What remains of a frame -/

section Remaining

variable (s : State)

theorem State.remaining_start (h : s.cursor.toNat = 0) : s.remaining =
    frameEnd :: (staleBody s.escapePending (frameBody s.loaded s.checksum) ++ [frameEnd]) := by
  simp [State.remaining, h]

theorem State.remaining_inside (h1 : 1 ≤ s.cursor.toNat) (h2 : s.cursor.toNat ≤ s.length.toNat + 3) :
    s.remaining =
      staleBody s.escapePending ((frameBody s.loaded s.checksum).drop (s.cursor.toNat - 1)) ++ [frameEnd] := by
  have h : ¬ s.cursor.toNat = 0 := by omega
  simp [State.remaining, h, h2]

theorem State.remaining_done (h : s.length.toNat + 3 < s.cursor.toNat) : s.remaining = [] := by
  have h0 : ¬ s.cursor.toNat = 0 := by omega
  have h3 : ¬ s.cursor.toNat ≤ s.length.toNat + 3 := by omega
  simp [State.remaining, h0, h3]

/-- Everything but `cursor`, `escapePending` and the responses is as before. -/
def State.SameFrame (s t : State) : Prop :=
  t = { s with cursor := t.cursor, escapePending := t.escapePending, responsePort := t.responsePort }

theorem State.SameFrame.trans {s t u : State} (h : s.SameFrame t) (h' : t.SameFrame u) : s.SameFrame u := by
  unfold State.SameFrame at *
  rw [h'] ; rw [h]

/-- A cursor that stays in a frame does not wrap. -/
theorem State.advance_toNat (h : s.cursor.toNat ≤ 62) : (s.cursor + 1).toNat = s.cursor.toNat + 1 := by
  simp; omega

/-- One PULL takes the first byte off what remains, or answers Exhausted when nothing does. -/
theorem exec_pull_remaining (hl : s.LenOk) (hc : s.CurOk) : ∃ t, exec .pull s = .next t ∧ s.SameFrame t ∧
    t.LenOk ∧ t.CurOk ∧
    ((∃ b, s.remaining = b :: t.remaining ∧ t.responsePort = s.responsePort ++ [.byte b]) ∨
      (s.remaining = [] ∧ t = s.respond .exhausted)) := by
  obtain ⟨h0, he⟩ | ⟨h1, h2, ⟨b, hb, he⟩ | ⟨-, h, -⟩⟩ | ⟨h3, he⟩ | ⟨h4, he⟩ := exec_pull_cases s
  · refine ⟨_, he, rfl, hl, ?_, .inl ⟨frameEnd, ?_, rfl⟩⟩
    · simp [State.CurOk, State.pullStart]
    · rw [s.remaining_start h0, State.remaining_inside _ (by simp [State.pullStart]) (by simp [State.pullStart])]
      simp [State.pullStart]
  · have hn : (s.cursor + 1).toNat = s.cursor.toNat + 1 := s.advance_toNat (by omega)
    have hdrop : (frameBody s.loaded s.checksum).drop (s.cursor.toNat - 1) =
        b :: (frameBody s.loaded s.checksum).drop s.cursor.toNat := by
      have hbe : (frameBody s.loaded s.checksum)[s.cursor.toNat - 1]? = some b :=
        (s.bodyByte_eq hl h1 h2).symm.trans hb
      obtain ⟨hlt, hget⟩ := List.getElem?_eq_some_iff.mp hbe
      rw [List.drop_eq_getElem_cons hlt, hget]
      congr 2; omega
    have hin := s.remaining_inside h1 (by omega)
    rw [hdrop] at hin
    have hin' : ∀ e : Bool, (((s.setEscapePending e).advance)).remaining =
        staleBody e ((frameBody s.loaded s.checksum).drop s.cursor.toNat) ++ [frameEnd] := by
      intro e
      have hcur : ((s.setEscapePending e).advance).cursor.toNat = s.cursor.toNat + 1 := hn
      rw [State.remaining_inside _ (by omega) (by rw [hcur]; show _ ≤ s.length.toNat + 3; omega), hcur]
      rfl
    obtain ⟨hp, hs⟩ | ⟨t, ht, hf, hs⟩ | ⟨t, ht, hf, hs⟩ := s.escapeStep_cases b <;> rw [hs] at he
    · refine ⟨_, he, rfl, hl, by show (s.cursor + 1).toNat ≤ _ + 4; simp; omega, .inl ⟨b, ?_, rfl⟩⟩
      rw [hin, staleBody_plain _ _ hp]
      exact congrArg (b :: ·) (hin' s.escapePending).symm
    · refine ⟨_, he, rfl, hl, hc, .inl ⟨escapePrefix, ?_, rfl⟩⟩
      rw [hin, hf, staleBody_down _ ht]
      have : ((s.setEscapePending true).respond (.byte escapePrefix)).remaining =
          staleBody true (b :: (frameBody s.loaded s.checksum).drop s.cursor.toNat) ++ [frameEnd] := by
        rw [State.remaining_inside _ (by simpa using h1) (by simp; omega)]
        simp [hdrop]
      rw [this, staleBody_up _ ht]; rfl
    · refine ⟨_, he, rfl, hl, by show (s.cursor + 1).toNat ≤ _ + 4; simp; omega, .inl ⟨t, ?_, rfl⟩⟩
      rw [hin, hf, staleBody_up _ ht]
      exact congrArg (t :: ·) (hin' false).symm
  · exact absurd hl (by omega)
  · have hl' : s.length.toNat ≤ 32 := hl
    have hn : (s.length + 4).toNat = s.length.toNat + 4 := by simp; omega
    refine ⟨_, he, rfl, hl, by show (s.length + 4).toNat ≤ s.length.toNat + 4; omega, .inl ⟨frameEnd, ?_, rfl⟩⟩
    rw [State.remaining_inside s (by omega) (by omega),
      State.remaining_done _ (by show s.length.toNat + 3 < (s.length + 4).toNat; omega)]
    rw [List.drop_of_length_le (by rw [frameBody_length, s.loaded_length hl]; omega)]
    rfl
  · exact ⟨_, he, rfl, hl, hc, .inr ⟨s.remaining_done h4, rfl⟩⟩

end Remaining

end Sys2Proof.Machine
end

