-- ==== Sys2Proof/Machine/Assembly.lean ====
section
/-! DEFINITION. The command-stream assembly syntax of 30_encoding.md R71: how a command and a response are written as
text. No step reads it; it is the notation of the spec's listings. -/

namespace Sys2Proof.Machine

/-- One hexadecimal digit. -/
def hexDigit (n : Nat) : String :=
  (["0", "1", "2", "3", "4", "5", "6", "7", "8", "9", "A", "B", "C", "D", "E", "F"][n]?).getD ""

/-- A byte as the listings write it. -/
def hexByte (b : Byte) : String := "0x" ++ hexDigit (b.toNat / 16) ++ hexDigit (b.toNat % 16)

/-- Bytes with a comma between them. -/
def commaList : List Byte → String
  | [] => ""
  | [b] => hexByte b
  | b :: c :: rest => hexByte b ++ ", " ++ commaList (c :: rest)

/-- One line of a command stream (R71). -/
def commandLine : Instr → String
  | .reset => "RESET"
  | .load data => "LOAD [" ++ commaList data ++ "]"
  | .finalize => "FINALIZE"
  | .pull => "PULL"
  | .pingRequest => "PING_REQUEST"
  | .pingConfirm => "PING_CONFIRM"

/-- The name of an error kind (60_exceptions.md R160). -/
def errorName : ErrorKind → String
  | .badChecksum => "BadChecksum"
  | .badHeader => "BadHeader"
  | .bufferOverflow => "BufferOverflow"
  | .fileNotFound => "FileNotFound"
  | .badOffset => "BadOffset"

/-- A response as the listings write it after the arrow (R71). -/
def responseText : Response → String
  | .ack => "Ack"
  | .byte b => "Byte(" ++ hexByte b ++ ")"
  | .exhausted => "Exhausted"
  | .error e => "Error(" ++ errorName e ++ ")"

end Sys2Proof.Machine
end

