-- ==== Sys2Proof/Tests/Slice0.lean ====
section
/-! SUPPORT. The model's own tests. Expected values come from the vectors of 95_test_vectors.md (V-, W-, P-numbers) or
from the encodings of 30_encoding.md, written out by hand. The second half gives, for each statement with hypotheses, a
concrete state and operands that meet all of them together. -/

namespace Sys2Proof.Tests

open Sys2Proof Sys2Proof.Machine

/-! ## Well-formedness -/

/-- The check refuses a LOAD whose count does not fit in byte 1. -/
theorem test_wf_refuses_long_load : (Instr.load (List.replicate 256 0)).wf = false := by decide +kernel

theorem test_wf_accepts_longest_load : (Instr.load (List.replicate 255 0)).wf = true := by decide +kernel

/-! ## Decoding words of 30_encoding.md R65 and R66 -/

theorem test_decode_reset : decode [0b00000000] = .command .reset [] := by decide
theorem test_decode_load : decode [0b00000001, 0b00000010, 0x21, 0xDB, 0x02] = .command (.load [0x21, 0xDB]) [0x02] := by
  decide
theorem test_decode_load_empty : decode [0b00000001, 0b00000000, 0x03] = .command (.load []) [0x03] := by decide
theorem test_decode_finalize : decode [0b00000010] = .command .finalize [] := by decide
theorem test_decode_pull : decode [0b00000011, 0x03] = .command .pull [0x03] := by decide
theorem test_decode_pingRequest : decode [0b00000100] = .command .pingRequest [] := by decide
theorem test_decode_pingConfirm : decode [0b00000101] = .command .pingConfirm [] := by decide
theorem test_decode_first_reserved : decode [0x06] = .invalid 0x06 := by decide
theorem test_decode_last_reserved : decode [0xFF, 0x00] = .invalid 0xFF := by decide
theorem test_decode_truncated_load : decode [0x01, 0x03, 0xAA, 0xBB] = .incomplete := by decide
/-- P4's oversized LOAD, `01 21 00 .. 20`, is one command. -/
theorem test_decode_oversized_load :
    decode ([0x01, 0x21] ++ List.replicate 33 0x07 ++ [0x03]) = .command (.load (List.replicate 33 0x07)) [0x03] := by
  decide
theorem test_table_word_load : decodeTableWord 8 0x01 = some (.load []) := by decide
theorem test_table_word_reserved : decodeTableWord 8 0x06 = none := by decide

/-! ## The checksum engine (V-C1 to V-C12) -/

theorem test_crc_step : crcStep 0xFFFF 0x81 = 0x9A06 := by decide
theorem test_crc_escape_bytes : crc16X25 [0xC0, 0xDB, 0x00] = 0x77C5 := by decide +kernel
theorem test_crc_left : crc16Left [0xC0, 0xDB, 0x00] = 0x77C5 := by decide +kernel

/-! ## The wire format (V-E1, V-E11, V-E12, V-E16) -/

theorem test_frame_escaped_payload : frame [0xC0] 0x3674 = [0xC0, 0xDB, 0xDC, 0x36, 0x74, 0xC0] := by decide
theorem test_frame_escaped_checksum :
    frame [0xBA, 0x23] 0xDBC0 = [0xC0, 0xBA, 0x23, 0xDB, 0xDD, 0xDB, 0xDC, 0xC0] := by decide
theorem test_stale_body : staleBody true [0xDB, 0x98, 0x26] = [0xDD, 0x98, 0x26] := by decide
theorem test_unstuff : unstuff false [0xDB, 0xDC, 0x01, 0xDB, 0xDD] = some [0xC0, 0x01, 0xDB] := by decide

/-! ## Responses and text -/

theorem test_error_response_bytes : encodeResponse (.error .bufferOverflow) = [0x03, 0x02] := by decide
theorem test_load_line : commandLine (.load [0xC0, 0x05]) = "LOAD [0xC0, 0x05]" := by decide
theorem test_response_text : responseText (.byte 0xDB) = "Byte(0xDB)" := by decide

/-! ## One step of each command -/

/-- A state in the middle of things: payload `d`, and the registers. -/
def stateAt (d : List Byte) (cursor : BitVec 6) (flag : Bool) (checksum : Word16) : State :=
  { State.reset with
    payload := Payload.store State.reset.payload d, length := BitVec.ofNat 6 d.length,
    cursor := cursor, escapePending := flag, checksum := checksum }

/-- The same with the parameter false. -/
def atKeep (d : List Byte) (cursor : BitVec 6) (flag : Bool) (checksum : Word16) : State :=
  { stateAt d cursor flag checksum with config := { resetClearsEsc := false } }

/-- The state that an outcome holds, or the power-on state. -/
def after (o : Host.Outcome State Fault Refusal) : State :=
  match o with
  | .next t => t
  | .fault _ => State.reset
  | .refused _ => State.reset

/-- R80's example and its parameter: RESET with the flag up. -/
theorem test_reset_clears_flag : after (exec .reset (stateAt [0x01] 2 true 0xE1F1)) =
    { stateAt [0x01] 2 true 0xE1F1 with length := 0, cursor := 0, escapePending := false, responsePort := [.ack] } := by
  decide

theorem test_reset_keeps_flag : (after (exec .reset (atKeep [0xC0, 0x05] 1 true 0))).escapePending = true := by decide

/-- V-L3. -/
theorem test_load_stores_raw_bytes : after (exec (.load [0xC0, 0xDB, 0x00]) State.reset) =
    { stateAt [0xC0, 0xDB, 0x00] 0 false 0x0000 with responsePort := [.ack] } := by decide

/-- P4: the rejected LOAD in the middle of a drain. -/
theorem test_load_rejected : after (exec (.load (List.replicate 33 0x07)) (stateAt [0x01] 2 false 0xE1F1)) =
    { stateAt [0x01] 2 false 0xE1F1 with responsePort := [.error .bufferOverflow] } := by decide

/-- P2. -/
theorem test_finalize_checksum : after (exec .finalize (stateAt [0x21, 0xDB] 6 false 0)) =
    { stateAt [0x21, 0xDB] 0 false 0x5DF2 with responsePort := [.ack] } := by decide +kernel

/-- V-P1: the two PULLs of an escaped byte. -/
theorem test_pull_prefix : after (exec .pull (stateAt [0xC0] 1 false 0x3674)) =
    { stateAt [0xC0] 1 true 0x3674 with responsePort := [.byte 0xDB] } := by decide

theorem test_pull_transformed : after (exec .pull (stateAt [0xC0] 1 true 0x3674)) =
    { stateAt [0xC0] 2 false 0x3674 with responsePort := [.byte 0xDC] } := by decide

/-- V-G3: the flag is kept. -/
theorem test_ping_request_keeps_flag : after (exec .pingRequest (stateAt [0xC0] 1 true 0x3674)) =
    { stateAt [0x01] 0 true 0xE1F1 with responsePort := [.ack] } := by decide

/-- V-G2. -/
theorem test_ping_confirm : after (exec .pingConfirm State.reset) =
    { stateAt [0x81] 0 false 0x65F9 with responsePort := [.ack] } := by decide

/-- A reserved opcode after power-on is refused. -/
theorem test_step_reserved : step (State.reset.deliver [0x06, 0x00]) = .refused (.reservedOpcode 0x06) := rfl

/-- After power-on, with nothing delivered, the block idles. -/
theorem test_step_idle : step State.reset = .next State.reset := rfl

/-- The word of a table row is exactly one command on the port. -/
theorem test_fetch_word_is_one_command : (State.reset.withFetchWord 8 0x01).commandPort = [0x01, 0x00] := by decide

/-! ## Hypotheses that hold together -/

/-- The longest payload, at its last position. -/
def fullAt (cursor : BitVec 6) : State := stateAt (List.replicate 32 0x11) cursor false 0xC0DB

theorem witness_StepKeepsLengthAndCursorInRange :
    (fullAt 36).Inv ∧ step (fullAt 36) = .next (fullAt 36) ∧
    ((fullAt 35).deliver [0x03]).Inv ∧ ∃ t, step ((fullAt 35).deliver [0x03]) = .next t :=
  ⟨by decide, rfl, by decide, _, rfl⟩

theorem witness_SequencedStepKeepsEscapeInvariant :
    let s := (stateAt [0xC0] 1 true 0x3674).deliver [0x03]
    s.Inv ∧ s.EscOk ∧ s.fetch = .command .pull [] ∧ keepsEscapeRule .pull s = true ∧ ∃ t, step s = .next t :=
  ⟨by decide, by decide, rfl, rfl, _, rfl⟩

/-- The same statement's premises for a rejected LOAD that waits mid-escape (R187). -/
theorem witness_SequencedStepKeepsEscapeInvariant_rejected :
    let d : List Byte := List.replicate 33 0x07
    let s := (stateAt [0xC0] 1 true 0x3674).deliver (encode (.load d))
    s.Inv ∧ s.EscOk ∧ s.fetch = .command (.load d) [] ∧ keepsEscapeRule (.load d) s = true ∧ ∃ t, step s = .next t :=
  ⟨by decide, by decide, by decide +kernel, rfl, _, rfl⟩

theorem witness_StepStopsOnlyAtReservedOpcode :
    (fullAt 0).LenOk ∧
    (((fullAt 0).deliver [0x06]).commandPort = [0x06] ∧ 6 ≤ (0x06 : Byte).toNat) ∧
    (((fullAt 0).deliver [0xFF]).commandPort = [0xFF] ∧ 6 ≤ (0xFF : Byte).toNat) ∧
    ∃ t, step ((fullAt 0).deliver [0x05]) = .next t :=
  ⟨by decide, by decide, by decide, _, rfl⟩

theorem witness_StepRunsTheDecodedCommand :
    decode (State.reset.deliver [0x01, 0x01, 0xDB, 0x02]).commandPort = .command (.load [0xDB]) [0x02] := by decide

theorem witness_DecodeOfEncode : (Instr.load (List.replicate 255 0xAA)).wf = true := by decide +kernel

theorem witness_EncodeOfDecode : decode [0x01, 0x01, 0xDB, 0x02] = .command (.load [0xDB]) [0x02] := by decide

theorem witness_ReservedOpcodeIsRefused :
    6 ≤ (0x06 : Byte).toNat ∧ (State.reset.deliver [0x06, 0x00]).commandPort = [0x06, 0x00] ∧
    6 ≤ (0xFF : Byte).toNat ∧ (State.reset.deliver [0xFF]).commandPort = [0xFF] := by decide

theorem witness_TruncatedLoadIsNotExecuted :
    (State.reset.deliver [0x01]).commandPort = [0x01] ∧
    (State.reset.deliver [0x01, 0x02, 0xAA]).commandPort = 0x01 :: 0x02 :: [0xAA] ∧
    [(0xAA : Byte)].length < (0x02 : Byte).toNat := by decide

theorem witness_CommandWaitsForAllItsBytes :
    (Instr.load [0xAA, 0xBB]).wf = true ∧ encode (.load [0xAA, 0xBB]) = [0x01, 0x02, 0xAA] ++ [0xBB] ∧
    ([0xBB] : List Byte) ≠ [] ∧ (State.reset.deliver [0x01, 0x02, 0xAA]).commandPort = [0x01, 0x02, 0xAA] := by decide

theorem witness_CommandsRunInIssueOrder :
    ∀ i ∈ [Instr.load [0xC0], .finalize, .pull], i.wf = true := by decide

/-- The lemma that an answered step is a next state, for witnesses about `exec`. -/
theorem next_after {o : Host.Outcome State Fault Refusal} {t : State} (h : o = .next t) : o = .next (after o) := by
  rw [h]; rfl

theorem witness_OneResponsePerCommand :
    (∃ t, exec .reset State.reset = .next t) ∧ (∃ t, exec (.load (List.replicate 33 0)) State.reset = .next t) ∧
    (∃ t, exec .finalize State.reset = .next t) ∧ (∃ t, exec .pull (fullAt 36) = .next t) ∧
    (∃ t, exec .pull (fullAt 35) = .next t) ∧ ∃ t, exec .pingRequest State.reset = .next t :=
  ⟨⟨_, rfl⟩, ⟨_, rfl⟩, ⟨_, rfl⟩, ⟨_, rfl⟩, ⟨_, rfl⟩, ⟨_, rfl⟩⟩

theorem witness_ResponseBytesAreUnambiguous :
    encodeResponse (.byte 0xC0) ++ [0x02] = encodeResponse (.byte 0xC0) ++ [0x02] := rfl

theorem witness_OnlyOversizedLoadFails :
    ∃ t, exec (.load (List.replicate 33 0)) State.reset = .next t ∧
      t.responsePort = State.reset.responsePort ++ [.error .bufferOverflow] := ⟨_, rfl, rfl⟩

theorem witness_ResetEffect :
    (after (exec .reset (stateAt [0xC0] 1 true 0))).escapePending = false ∧
    (after (exec .reset (atKeep [0xC0] 2 false 0))).escapePending = false := by decide

theorem witness_LoadEffect :
    32 < (List.replicate 33 (0x07 : Byte)).length ∧ (List.replicate 32 (0x07 : Byte)).length ≤ 32 ∧
    ([] : List Byte).length ≤ 32 ∧ 31 < (List.replicate 32 (0x07 : Byte)).length ∧ ([] : List Byte).length ≤ 0 := by
  decide

theorem witness_FinalizeEffect : (fullAt 0).LenOk ∧ State.reset.LenOk ∧ State.reset.length = 0 := by decide

theorem witness_SendLoadsAndFinalizes : (List.replicate 32 (0xC0 : Byte)).length ≤ 32 := by decide

theorem witness_RepeatedCommands :
    (∃ t, exec .reset (fullAt 3) = .next t) ∧ (∃ t, exec .finalize (fullAt 3) = .next t) ∧
    ([0x01] : List Byte).length ≤ 32 ∧ (∃ t, exec (.load [0x01]) (fullAt 3) = .next t) ∧
    32 < (List.replicate 33 (0 : Byte)).length ∧ (∃ t, exec (.load (List.replicate 33 0)) (fullAt 3) = .next t) ∧
    (∃ t, exec .pull (fullAt 35) = .next t) ∧ ∃ t, exec .pull (fullAt 36) = .next t :=
  ⟨⟨_, rfl⟩, ⟨_, rfl⟩, by decide, ⟨_, rfl⟩, by decide, ⟨_, rfl⟩, ⟨_, rfl⟩, ⟨_, rfl⟩⟩

theorem witness_CommandsWriteOnlyTheirFields :
    (after (exec .pingRequest State.reset)).payload ≠ State.reset.payload ∧
    (after (exec .pingRequest State.reset)).length ≠ State.reset.length ∧
    (after (exec .pull State.reset)).cursor.toNat > State.reset.cursor.toNat ∧
    (after (exec .reset (stateAt [0xC0] 1 true 0))).escapePending ≠ (stateAt [0xC0] 1 true 0).escapePending ∧
    (after (exec .finalize (stateAt [0xC0] 1 true 0))).checksum ≠ (stateAt [0xC0] 1 true 0).checksum := by decide

theorem witness_ParametersNeverChange :
    ∃ t, runSteps 1 ((atKeep [0xC0] 1 true 0).deliver [0x00]) = .next t := ⟨_, rfl⟩

/-- Each clause at the ends of its range: positions 1 and 32 of the longest payload, then its checksum positions. -/
theorem witness_PositionTable :
    (fullAt 1).LenOk ∧ 1 ≤ (fullAt 1).cursor.toNat ∧ (fullAt 32).cursor.toNat ≤ (fullAt 32).length.toNat ∧
    (fullAt 33).cursor.toNat = (fullAt 33).length.toNat + 1 ∧
    (fullAt 34).cursor.toNat = (fullAt 34).length.toNat + 2 := by decide

theorem witness_PullAtStart : (fullAt 0).cursor = 0 := by decide

/-- Each body position, and each case of the byte and the flag. -/
theorem witness_PullAtBodyPositions :
    ((1 ≤ (fullAt 32).cursor.toNat ∧ (fullAt 32).cursor.toNat ≤ (fullAt 32).length.toNat ∧
      (fullAt 32).payload[(fullAt 32).cursor.toNat - 1]? = some 0x11) ∧ isReserved 0x11 = false) ∧
    ((fullAt 33).cursor.toNat = (fullAt 33).length.toNat + 1 ∧
      (0xC0 : Byte) = ((fullAt 33).checksum >>> 8).setWidth 8 ∧ isReserved 0xC0 = true ∧
      (fullAt 33).escapePending = false) ∧
    ((stateAt [] 2 true 0xC0DB).cursor.toNat = (stateAt [] 2 true 0xC0DB).length.toNat + 2 ∧
      (0xDB : Byte) = (stateAt [] 2 true 0xC0DB).checksum.setWidth 8 ∧ isReserved 0xDB = true ∧
      (stateAt [] 2 true 0xC0DB).escapePending = true) := by decide

theorem witness_PullAtEnd : (fullAt 35).LenOk ∧ (fullAt 35).cursor.toNat = (fullAt 35).length.toNat + 3 := by decide

theorem witness_ExhaustedUntilRewound :
    (fullAt 36).LenOk ∧ (fullAt 36).length.toNat + 3 < (fullAt 36).cursor.toNat ∧
    Instr.load (List.replicate 32 0) ≠ .pull ∧ (List.replicate 32 (0 : Byte)).length ≤ 32 ∧
    Instr.finalize ≠ .pull := by decide

theorem witness_DelimitersIgnoreTheFlag :
    ((fullAt 0).cursor.toNat = 0 ∧ ∃ t, exec .pull (fullAt 0) = .next t) ∧
    ((fullAt 35).length.toNat + 3 ≤ (fullAt 35).cursor.toNat ∧ ∃ t, exec .pull (fullAt 35) = .next t) ∧
    ((fullAt 36).length.toNat + 3 ≤ (fullAt 36).cursor.toNat ∧ ∃ t, exec .pull (fullAt 36) = .next t) :=
  ⟨⟨by decide, _, rfl⟩, ⟨by decide, _, rfl⟩, ⟨by decide, _, rfl⟩⟩

theorem witness_PullWritesOnlyCursorAndFlag : (fullAt 36).LenOk ∧ (fullAt 36).CurOk := by decide

theorem witness_MidEscapeShowsAsPrefix :
    (stateAt [0xDB] 1 false 0).EscOk ∧ (∃ t, exec .pull (stateAt [0xDB] 1 false 0) = .next t ∧ t.escapePending = true) ∧
    (stateAt [0xDB] 1 true 0).EscOk ∧ ∃ t, exec .pull (stateAt [0xDB] 1 true 0) = .next t ∧ t.escapePending = false :=
  ⟨by decide, ⟨_, rfl, rfl⟩, by decide, ⟨_, rfl, rfl⟩⟩

theorem witness_RewindStartsANewFrame :
    (fullAt 5).LenOk ∧ (fullAt 5).escapePending = false ∧ Instr.reset ≠ .pull ∧
    Instr.load (List.replicate 32 0) ≠ .pull ∧ (List.replicate 32 (0 : Byte)).length ≤ 32 := by decide

theorem witness_DrainEndsWithinItsBound : (fullAt 36).Inv ∧ (stateAt [0xC0] 1 true 0).Inv ∧ State.reset.Inv := by decide

theorem witness_DrainAfterFinalizeEmitsTheFrame : (fullAt 7).LenOk ∧ (fullAt 7).escapePending = false := by decide

theorem witness_DrainUnderAStaleFlag :
    (stateAt [0xDB] 0 true 0x9826).LenOk ∧ (stateAt [0xDB] 0 true 0x9826).cursor = 0 ∧
    (fullAt 0).LenOk ∧ (fullAt 0).cursor = 0 := by decide

theorem witness_UnfinalizedDrainCarriesTheOldChecksum :
    ([0x81] : List Byte).length ≤ 32 ∧ (stateAt [0x01] 5 false 0xE1F1).escapePending = false := by decide

theorem witness_ResetLoadFinalizeIsReproducible :
    (stateAt [0xC0, 0x05] 1 true 0).config.resetClearsEsc = true ∧ ([0xDB] : List Byte).length ≤ 32 := by decide

theorem witness_PullsEmitTheFrameInOrder : (fullAt 0).ReadyToDrain := by decide

/-- R183's lifecycle: a frame abandoned by RESET, then LOAD, FINALIZE and PULLs. -/
theorem witness_WellSequencedStreamsEmitFrames :
    let before : List Instr := [.pingRequest, .pull, .reset, .load [0x95]]
    State.reset.LenOk ∧ State.reset.ChecksumMatches ∧ Instr.finalize ≠ .pull ∧
    wellSequenced false (before ++ Instr.finalize :: List.replicate 2 .pull) State.reset = true ∧
    (∃ t, execAll (before ++ [Instr.finalize]) State.reset = .next t) ∧
    1 ≤ 2 ∧ (before ++ [Instr.finalize]).foldl resetSince false = false :=
  ⟨by decide, by decide, by decide, by decide, ⟨_, rfl⟩, by decide, by decide⟩

/-- The same statement's premises with a rejected LOAD issued mid-escape (R187): LOAD, FINALIZE, delimiter, prefix, the
rejected LOAD, transformed byte. -/
theorem witness_WellSequencedStreamsEmitFrames_rejected :
    let before : List Instr :=
      [.load [0xC0], .finalize, .pull, .pull, .load (List.replicate 33 0x07), .pull, .load [0x95]]
    wellSequenced false (before ++ Instr.finalize :: List.replicate 2 .pull) State.reset = true ∧
    (∃ t, execAll (before ++ [Instr.finalize]) State.reset = .next t) ∧
    (before ++ [Instr.finalize]).foldl resetSince false = false :=
  ⟨by decide +kernel, ⟨_, rfl⟩, by decide⟩

theorem witness_ChecksumMatchesUnlessALoadOrResetWaits :
    let is : List Instr := [.reset, .load [0x95], .finalize]
    State.reset.LenOk ∧ State.reset.ChecksumMatches ∧ (∃ t, execAll is State.reset = .next t) ∧
    is.foldl loadWaits false = false ∧ is.foldl resetSince false = false ∧
    ∃ t, exec .reset (stateAt [0x01] 2 false 0xE1F1) = .next t :=
  ⟨by decide, by decide, ⟨_, rfl⟩, by decide, by decide, _, rfl⟩

theorem witness_ChecksumLaws : ([0x01, 0x02] : List Byte).length = ([0xC0, 0xDB] : List Byte).length := by decide

/-- Two states that differ in byte 5 of the buffer, beyond `length`. -/
theorem witness_PayloadBeyondLengthIsUnobservable :
    let s := stateAt [0x01] 1 false 0xE1F1
    let t := s.setPayload (Payload.store s.payload [0x01, 0, 0, 0, 0, 0xAA])
    SameVisible s t ∧ s ≠ t := by
  refine ⟨⟨rfl, fun i hi => ?_⟩, by decide⟩
  have h : i = 0 := by
    have : i < 1 := hi
    omega
  subst h
  rfl

theorem witness_InstancesAreIndependent :
    let all := [State.reset.deliver [0x04], State.reset.deliver [0x03]]
    (0 : Nat) ≠ 1 ∧ ∃ one both, stepInstance 0 all = .next one ∧ stepInstance 1 one = .next both :=
  ⟨by decide, _, _, rfl, rfl⟩

/-! ## The machine of Host/Core.lean -/

/-- The host's run of the machine is the model's `runSteps`. -/
theorem test_core_runs_steps (k : Nat) (s : State) : core.run k s = runSteps k s := core_run_eq k s

end Sys2Proof.Tests
end

section
/-! The step on a port that holds a whole command. -/

namespace Sys2Proof.Machine

/-- The counterpart of `step_of_incomplete` for a command that waits whole (R64, R66). -/
theorem step_of_command {s : State} {i : Instr} {rest : List Byte} (h : decode s.commandPort = .command i rest) :
    step s = exec i (s.setCommandPort rest) := by
  simp only [step, State.fetch, h]

/-- Settles O6: `setCommandPort` is the update of the one field that the statement writes out. -/
theorem stepRunsTheDecodedCommand : Obligations.StepRunsTheDecodedCommand := by
  intro s i rest h
  exact step_of_command h

end Sys2Proof.Machine
end

section
/-! Which states a command can leave: what PULL leaves alone, the invariants of R30, and the field-by-field frame
(10_state.md). -/

namespace Sys2Proof.Machine

/-! ## What each command can do, where it answers a next state -/

/-- The counterpart of `exec_finalize_next` for LOAD. -/
theorem exec_load_next {d : List Byte} {s t : State} (h : exec (.load d) s = .next t) :
    (d.length ≤ 32 ∧ t = (s.loadPayload d).respond .ack) ∨ (32 < d.length ∧ t = s.reject .bufferOverflow) := by
  obtain ⟨hd, he⟩ | ⟨hd, he⟩ := exec_load_cases s d
  · exact .inl ⟨hd, Host.Outcome.next.inj (h.symm.trans he)⟩
  · exact .inr ⟨hd, Host.Outcome.next.inj (h.symm.trans he)⟩

/-- The counterpart of `exec_finalize_next` for PULL. -/
theorem exec_pull_next {s t : State} (h : exec .pull s = .next t) :
    (s.cursor.toNat = 0 ∧ t = s.pullStart) ∨
    (1 ≤ s.cursor.toNat ∧ s.cursor.toNat ≤ s.length.toNat + 2 ∧ ∃ b, s.bodyByte = some b ∧ t = s.escapeStep b) ∨
    (s.cursor.toNat = s.length.toNat + 3 ∧ t = s.pullEnd) ∨
    (s.length.toNat + 3 < s.cursor.toNat ∧ t = s.pullDone) := by
  obtain ⟨hc, he⟩ | ⟨h1, h2, ⟨b, hb, he⟩ | ⟨-, -, he⟩⟩ | ⟨hc, he⟩ | ⟨hc, he⟩ := exec_pull_cases s <;>
    rw [he] at h <;> cases h
  · exact .inl ⟨hc, rfl⟩
  · exact .inr (.inl ⟨h1, h2, b, hb, rfl⟩)
  · exact .inr (.inr (.inl ⟨hc, rfl⟩))
  · exact .inr (.inr (.inr ⟨hc, rfl⟩))

theorem State.escapeStep_sameFrame (s : State) (b : Byte) : s.SameFrame (s.escapeStep b) := by
  obtain ⟨-, hs⟩ | ⟨_, -, -, hs⟩ | ⟨_, -, -, hs⟩ := s.escapeStep_cases b <;> rw [hs] <;> rfl

/-- PULL writes no field but `cursor` and `escapePending`, in states without I-LEN as well (R100). -/
theorem exec_pull_sameFrame {s t : State} (h : exec .pull s = .next t) : s.SameFrame t := by
  obtain ⟨-, rfl⟩ | ⟨-, -, b, -, rfl⟩ | ⟨-, rfl⟩ | ⟨-, rfl⟩ := exec_pull_next h
  · rfl
  · exact s.escapeStep_sameFrame b
  · rfl
  · rfl

/-! ## I-LEN and I-CUR -/

/-- A state at the start of a frame meets I-CUR, so a command that rewinds owes I-LEN alone. -/
theorem State.inv_of_cursor_zero {s : State} (hl : s.LenOk) (hc : s.cursor = 0) : s.Inv :=
  ⟨hl, by simp [State.CurOk, hc]⟩

theorem State.loadPayload_inv (s : State) {d : List Byte} (h : d.length ≤ 32) : (s.loadPayload d).Inv :=
  State.inv_of_cursor_zero (by simpa [State.LenOk, countOf_toNat h] using h) rfl

theorem State.ping_inv (s : State) (code : Byte) : (s.ping code).Inv :=
  s.loadPayload_inv (d := [code]) (by simp)

/-- No command breaks I-LEN or I-CUR (R30). -/
theorem exec_keeps_inv {i : Instr} {s t : State} (hs : s.Inv) (h : exec i s = .next t) : t.Inv := by
  cases i with
  | reset =>
    obtain rfl := Host.Outcome.next.inj h
    exact State.inv_of_cursor_zero (Nat.zero_le 32) rfl
  | load d =>
    obtain ⟨hd, rfl⟩ | ⟨-, rfl⟩ := exec_load_next h
    · exact s.loadPayload_inv hd
    · exact hs
  | finalize =>
    obtain ⟨hl, rfl⟩ := exec_finalize_next h
    exact State.inv_of_cursor_zero hl rfl
  | pull =>
    obtain ⟨u, hu, -, hl, hc, -⟩ := exec_pull_remaining s hs.1 hs.2
    obtain rfl := Host.Outcome.next.inj (hu.symm.trans h)
    exact ⟨hl, hc⟩
  | pingRequest =>
    obtain rfl := Host.Outcome.next.inj h
    exact s.ping_inv pingRequestCode
  | pingConfirm =>
    obtain rfl := Host.Outcome.next.inj h
    exact s.ping_inv pingConfirmCode

/-- A step that answers a next state has executed the command it fetched, or idled. -/
theorem step_next {s t : State} (h : step s = .next t) :
    (∃ i rest, s.fetch = .command i rest ∧ exec i (s.setCommandPort rest) = .next t) ∨ t = s := by
  obtain ⟨i, rest, hf, he⟩ | ⟨_, -, he⟩ | ⟨-, he⟩ := step_cases s <;> rw [he] at h
  · exact .inl ⟨i, rest, hf, h⟩
  · cases h
  · exact .inr (Host.Outcome.next.inj h).symm

/-- Settles O3: `exec_keeps_inv` for the command fetched, since the invariants do not read the port. -/
theorem stepKeepsLengthAndCursorInRange : Obligations.StepKeepsLengthAndCursorInRange := by
  intro s t hs h
  obtain ⟨i, rest, -, he⟩ | rfl := step_next h
  · exact exec_keeps_inv (s := s.setCommandPort rest) hs he
  · exact hs

/-! ## I-ESC -/

theorem State.escOk_of_flag_down {s : State} (h : s.escapePending = false) : s.EscOk := by
  intro hf
  rw [h] at hf
  cases hf

/-- Under I-ESC the flag is down at a delimiter and at DONE. -/
theorem State.EscOk.flag_down_outside_body {s : State} (h : s.EscOk)
    (hc : s.cursor.toNat = 0 ∨ s.length.toNat + 3 ≤ s.cursor.toNat) : s.escapePending = false := by
  by_contra hf
  obtain ⟨h1, h2, -⟩ := h (eq_true_of_ne_false hf)
  omega

/-- Under I-ESC the flag is down at a body byte that is not reserved. -/
theorem State.EscOk.flag_down_of_plain {s : State} (h : s.EscOk) {b : Byte} (hb : s.bodyByte = some b)
    (hp : escapeOf b = none) : s.escapePending = false := by
  by_contra hf
  obtain ⟨-, -, hr⟩ := h (eq_true_of_ne_false hf)
  rw [hb, Option.any_some, (escapeOf_eq_none_iff b).mp hp] at hr
  cases hr

/-- PULL keeps I-ESC: the flag goes up only at a reserved body byte, where the cursor then stays (R122). -/
theorem exec_pull_keeps_escOk {s t : State} (hs : s.EscOk) (h : exec .pull s = .next t) : t.EscOk := by
  obtain ⟨hc, rfl⟩ | ⟨h1, h2, b, hb, rfl⟩ | ⟨hc, rfl⟩ | ⟨hc, rfl⟩ := exec_pull_next h
  · exact State.escOk_of_flag_down (hs.flag_down_outside_body (.inl hc))
  · obtain ⟨hp, he⟩ | ⟨_, ht, -, he⟩ | ⟨_, -, -, he⟩ := s.escapeStep_cases b <;> rw [he]
    · exact State.escOk_of_flag_down (hs.flag_down_of_plain hb hp)
    · exact fun _ => ⟨h1, h2, by simp [hb, isReserved_of_some ht]⟩
    · exact State.escOk_of_flag_down rfl
  · exact State.escOk_of_flag_down (hs.flag_down_outside_body (.inr (by omega)))
  · exact State.escOk_of_flag_down (hs.flag_down_outside_body (.inr (by omega)))

/-- A command that keeps obligation 2 keeps I-ESC: it is a PULL, or a rejected LOAD, or it rewinds with the flag down. -/
theorem exec_keeps_escOk {i : Instr} {s t : State} (hs : s.EscOk) (hk : keepsEscapeRule i s = true)
    (h : exec i s = .next t) : t.EscOk := by
  by_cases hp : i = .pull
  · subst hp
    exact exec_pull_keeps_escOk hs h
  by_cases hd : ∀ d, i = .load d → d.length ≤ 32
  · exact State.escOk_of_flag_down (rewinds_of_keepsEscapeRule hp hd hk h).2
  · push Not at hd
    obtain ⟨d, rfl, hlt⟩ := hd
    rw [exec_load_rejected s hlt] at h
    obtain rfl := Host.Outcome.next.inj h
    exact hs

/-- Obligation 2 does not read the command port. -/
theorem keepsEscapeRule_setCommandPort (i : Instr) (s : State) (bytes : List Byte) :
    keepsEscapeRule i (s.setCommandPort bytes) = keepsEscapeRule i s := by
  cases i <;> rfl

/-- Settles O4: I-LEN and I-CUR as in O3, and I-ESC by `exec_keeps_escOk` for the command fetched. -/
theorem sequencedStepKeepsEscapeInvariant : Obligations.SequencedStepKeepsEscapeInvariant := by
  intro s t hs he hk h
  refine ⟨stepKeepsLengthAndCursorInRange s t hs h, ?_⟩
  obtain ⟨i, rest, hf, hx⟩ | rfl := step_next h
  · exact exec_keeps_escOk (s := s.setCommandPort rest) he
      ((keepsEscapeRule_setCommandPort i s rest).trans (hk i rest hf)) hx
  · exact he

/-- Settles O2: the flag is down at power-on, so I-ESC asks nothing. -/
theorem resetMeetsInvariants : Obligations.ResetMeetsInvariants :=
  ⟨State.inv_of_cursor_zero (Nat.zero_le 32) rfl, State.escOk_of_flag_down rfl⟩

/-! ## Which command may change which field -/

/-- Settles O28: command by command, from what each can leave; PULL's part is `exec_pull_sameFrame`. -/
theorem commandsWriteOnlyTheirFields : Obligations.CommandsWriteOnlyTheirFields := by
  intro i s t h
  cases i with
  | reset =>
    obtain rfl := Host.Outcome.next.inj h
    cases hc : s.config.resetClearsEsc <;> simp [State.escapeAfterReset, hc]
  | load d => obtain ⟨-, rfl⟩ | ⟨-, rfl⟩ := exec_load_next h <;> simp
  | finalize =>
    obtain ⟨-, rfl⟩ := exec_finalize_next h
    simp
  | pull =>
    rw [exec_pull_sameFrame h]
    simp
  | pingRequest =>
    obtain rfl := Host.Outcome.next.inj h
    simp [State.ping]
  | pingConfirm =>
    obtain rfl := Host.Outcome.next.inj h
    simp [State.ping]

theorem exec_config {i : Instr} {s t : State} (h : exec i s = .next t) : t.config = s.config := by
  obtain ⟨-, -, -, -, -, hc, -⟩ := commandsWriteOnlyTheirFields i s t h
  exact hc

theorem step_config {s t : State} (h : step s = .next t) : t.config = s.config := by
  obtain ⟨i, rest, -, he⟩ | rfl := step_next h
  · exact exec_config (s := s.setCommandPort rest) he
  · rfl

/-- What holds of a state and is kept by every step holds wherever a run ends. -/
theorem runSteps_keeps {P : State → Prop} (hstep : ∀ s t, P s → step s = .next t → P t) (k : Nat) {s t : State}
    (hs : P s) (h : runSteps k s = .next t) : P t := by
  induction k generalizing s with
  | zero =>
    cases h
    exact hs
  | succ k ih =>
    rw [runSteps_succ] at h
    cases hx : step s with
    | next u =>
      rw [hx] at h
      exact ih (hstep s u hs hx) h
    | fault f => simp [hx, andThen] at h
    | refused r => simp [hx, andThen] at h

/-- Settles O29: no step changes the parameter. -/
theorem parametersNeverChange : Obligations.ParametersNeverChange := by
  refine ⟨rfl, fun k s t h => ?_⟩
  exact runSteps_keeps (P := fun u => u.config = s.config) (fun _ _ hu hx => (step_config hx).trans hu) k rfl h

end Sys2Proof.Machine
end

section
/-! Payload bytes at or beyond `length` never show (10_state.md R21): `SameVisible` is kept by every operation, so by
every command, step and run. -/

namespace Sys2Proof.Machine

namespace SameVisible

variable {s t : State}

/-! ## What two such states agree on -/

theorem length_eq (h : SameVisible s t) : t.length = s.length := by rw [h.1]; rfl
theorem checksum_eq (h : SameVisible s t) : t.checksum = s.checksum := by rw [h.1]; rfl
theorem fetch_eq (h : SameVisible s t) : t.fetch = s.fetch := by rw [h.1]; rfl
theorem position_eq (h : SameVisible s t) : t.position = s.position := by rw [h.1]; rfl
theorem escapeAfterReset_eq (h : SameVisible s t) : t.escapeAfterReset = s.escapeAfterReset := by rw [h.1]; rfl

/-- FINALIZE reads bytes below `length` only. -/
theorem loaded_eq (h : SameVisible s t) : t.loaded = s.loaded := by
  apply List.ext_getElem?
  intro i
  by_cases hi : i < s.length.toNat
  · rw [State.loaded_getElem? t (by rwa [h.length_eq]), State.loaded_getElem? s hi, h.2 i hi]
  · simp [State.loaded, h.length_eq, hi]

/-- So does PULL. -/
theorem bodyByte_eq (h : SameVisible s t) : t.bodyByte = s.bodyByte := by
  unfold State.bodyByte
  rw [h.position_eq, h.checksum_eq]
  obtain ⟨-, hp⟩ | ⟨h1, hn, hp⟩ | ⟨-, hp⟩ | ⟨-, hp⟩ | ⟨-, hp⟩ | ⟨-, hp⟩ :=
    position_cases s.cursor.toNat s.length.toNat <;> rw [State.position, hp]
  exact h.2 _ (by omega)

/-! ## The operations keep it -/

theorem setCursor (h : SameVisible s t) (c : BitVec 6) : SameVisible (s.setCursor c) (t.setCursor c) :=
  ⟨by rw [h.1]; rfl, h.2⟩
theorem setEscapePending (h : SameVisible s t) (e : Bool) :
    SameVisible (s.setEscapePending e) (t.setEscapePending e) :=
  ⟨by rw [h.1]; rfl, h.2⟩
theorem setChecksum (h : SameVisible s t) (c : Word16) : SameVisible (s.setChecksum c) (t.setChecksum c) :=
  ⟨by rw [h.1]; rfl, h.2⟩
theorem respond (h : SameVisible s t) (r : Response) : SameVisible (s.respond r) (t.respond r) :=
  ⟨by rw [h.1]; rfl, h.2⟩
theorem setCommandPort (h : SameVisible s t) (x : List Byte) : SameVisible (s.setCommandPort x) (t.setCommandPort x) :=
  ⟨by rw [h.1]; rfl, h.2⟩
theorem rewind (h : SameVisible s t) : SameVisible s.rewind t.rewind := h.setCursor 0

/-- With `length` 0 no payload byte is below it. -/
theorem setLength_zero (h : SameVisible s t) : SameVisible (s.setLength 0) (t.setLength 0) :=
  ⟨by rw [h.1]; rfl, fun i hi => absurd hi (Nat.not_lt_zero i)⟩

/-- LOAD writes every byte below the `length` it sets. -/
theorem loadPayload (h : SameVisible s t) {d : List Byte} (hd : d.length ≤ 32) :
    SameVisible (s.loadPayload d) (t.loadPayload d) := by
  refine ⟨by rw [h.1]; rfl, fun i hi => ?_⟩
  rw [State.loadPayload_length, countOf_toNat hd] at hi
  exact (Payload.store_getElem?_of_lt _ _ hi hd).trans (Payload.store_getElem?_of_lt _ _ hi hd).symm

theorem escapeStep (h : SameVisible s t) (b : Byte) : SameVisible (s.escapeStep b) (t.escapeStep b) := by
  refine ⟨?_, fun i hi => ?_⟩
  · rw [h.1, State.setPayload_escapeStep]; rfl
  · have hs := s.escapeStep_sameFrame b
    have ht := t.escapeStep_sameFrame b
    rw [hs] at hi
    rw [hs, ht]
    exact h.2 i hi

/-! ## The commands keep it -/

theorem ping (h : SameVisible s t) (code : Byte) : SameVisible (s.ping code) (t.ping code) :=
  ((h.loadPayload (d := [code]) (by simp)).setChecksum _).respond _

theorem pullBody (h : SameVisible s t) : SameOutcome s.pullBody t.pullBody := by
  unfold State.pullBody
  rw [h.bodyByte_eq]
  cases s.bodyByte with
  | some b => exact h.escapeStep b
  | none => rfl

theorem exec_pull (h : SameVisible s t) : SameOutcome (exec .pull s) (exec .pull t) := by
  show SameOutcome (execPull s) (execPull t)
  unfold execPull
  rw [h.position_eq]
  cases s.position with
  | start => exact (h.setCursor 1).respond _
  | payload i => exact h.pullBody
  | checksumHigh => exact h.pullBody
  | checksumLow => exact h.pullBody
  | endDelimiter =>
    show SameVisible s.pullEnd t.pullEnd
    rw [State.pullEnd, State.pullEnd, h.length_eq]
    exact (h.setCursor _).respond _
  | done => exact h.respond _

theorem exec (h : SameVisible s t) (i : Instr) : SameOutcome (exec i s) (exec i t) := by
  cases i with
  | reset =>
    rw [exec_reset, exec_reset, h.escapeAfterReset_eq]
    exact (((h.setCursor 0).setLength_zero).setEscapePending _).respond _
  | load d =>
    obtain hd | hd := Nat.lt_or_ge 32 d.length
    · rw [exec_load_rejected s hd, exec_load_rejected t hd]
      exact h.respond _
    · rw [exec_load_accepted s hd, exec_load_accepted t hd]
      exact (h.loadPayload hd).respond _
  | finalize =>
    obtain hl | hl := Nat.lt_or_ge 32 s.length.toNat
    · rw [exec_finalize_fault s hl, exec_finalize_fault t (by rwa [h.length_eq])]
      rfl
    · rw [exec_finalize s hl, exec_finalize t (by rwa [h.length_eq]), h.loaded_eq]
      exact ((h.setChecksum _).rewind).respond _
  | pull => exact h.exec_pull
  | pingRequest => exact h.ping _
  | pingConfirm => exact h.ping _

theorem step (h : SameVisible s t) : SameOutcome (step s) (step t) := by
  unfold Machine.step
  rw [h.fetch_eq]
  cases s.fetch with
  | command i rest => exact (h.setCommandPort rest).exec i
  | invalid opcode => rfl
  | incomplete => exact h

end SameVisible

/-- Outcomes that show the same go on to show the same. -/
theorem SameOutcome.andThen {o o' : Host.Outcome State Fault Refusal} {f : State → Host.Outcome State Fault Refusal}
    (h : SameOutcome o o') (hf : ∀ s t, SameVisible s t → SameOutcome (f s) (f t)) :
    SameOutcome (andThen o f) (andThen o' f) :=
  match o, o', h with
  | .next s, .next t, h => hf s t h
  | .fault _, .fault _, h => h
  | .refused _, .refused _, h => h

/-- Settles O53, by induction on the number of steps. -/
theorem payloadBeyondLengthIsUnobservable : Obligations.PayloadBeyondLengthIsUnobservable := by
  intro k
  induction k with
  | zero => exact fun s t h => h
  | succ k ih => exact fun s t h => h.step.andThen ih

end Sys2Proof.Machine
end

section
/-! What a DRAIN answers from any state that meets I-LEN and I-CUR, and the drains of 10_state.md: straight after
power-on (R31), and after a LOAD without FINALIZE (R25). -/

namespace Sys2Proof.Machine

/-! ## One PULL of a drain -/

theorem drain_succ_of_exhausted {s t : State} (k : Nat) (h : exec .pull s = .next t)
    (hr : t.responsePort.getLast? = some .exhausted) : drain (k + 1) s = .next t := by
  simp [drain, h, hr]

theorem drain_succ_of_byte {s t : State} {b : Byte} (k : Nat) (h : exec .pull s = .next t)
    (hr : t.responsePort.getLast? = some (.byte b)) : drain (k + 1) s = drain k t := by
  simp [drain, h, hr]

/-! ## A whole drain -/

/-- Nothing remains of a frame at DONE only. -/
theorem State.done_of_remaining_nil {s : State} (h : s.remaining = []) : s.length.toNat + 3 < s.cursor.toNat := by
  by_contra hc
  obtain h0 | h1 := Nat.eq_zero_or_pos s.cursor.toNat
  · simp [s.remaining_start h0] at h
  · simp [s.remaining_inside h1 (by omega)] at h

/-- A drain that has more PULLs than bytes remain answers those bytes and Exhausted, changes nothing but the cursor,
the flag and the responses, and keeps I-ESC (R72, R112). -/
theorem drain_remaining (k : Nat) (s : State) (hs : s.Inv) (hk : s.remaining.length < k) :
    ∃ t, drain k s = .next t ∧ s.SameFrame t ∧ t.cursor.toNat = s.length.toNat + 4 ∧
      (s.EscOk → t.EscOk) ∧ t.responsePort = s.responsePort ++ s.remaining.map .byte ++ [.exhausted] := by
  induction k generalizing s with
  | zero => cases hk
  | succ k ih =>
    obtain ⟨t, he, hf, hl, hc, ⟨b, hb, hr⟩ | ⟨hn, rfl⟩⟩ := exec_pull_remaining s hs.1 hs.2
    · obtain ⟨u, hu, hfu, hcu, heu, hru⟩ := ih t ⟨hl, hc⟩ (by rw [hb, List.length_cons] at hk; omega)
      refine ⟨u, ?_, hf.trans hfu, by rw [hcu, hf], fun hesc => heu (exec_pull_keeps_escOk hesc he),
        by simp [hru, hr, hb]⟩
      rw [drain_succ_of_byte (b := b) k he (by simp [hr]), hu]
    · have hdone := State.done_of_remaining_nil hn
      have hcur : s.cursor.toNat ≤ s.length.toNat + 4 := hs.2
      exact ⟨_, drain_succ_of_exhausted k he (by simp), hf, by rw [State.respond_cursor]; omega,
        fun hesc => exec_pull_keeps_escOk hesc he, by simp [hn]⟩

theorem staleBody_length_le (stale : Bool) (bs : List Byte) : (staleBody stale bs).length ≤ 2 * bs.length := by
  induction bs generalizing stale with
  | nil => simp
  | cons b bs ih =>
    have hs := ih stale
    have hd := ih false
    cases h : escapeOf b with
    | none => simp only [staleBody_plain _ _ h, List.length_cons]; omega
    | some t =>
      cases stale
      · simp only [staleBody_down _ h, List.length_cons]; omega
      · simp only [staleBody_up _ h, List.length_cons]; omega

/-- R72's bound leaves room for the Exhausted after the bytes that remain. -/
theorem State.remaining_length_lt (s : State) (hs : s.Inv) : s.remaining.length < s.drainBound := by
  obtain ⟨hl, -⟩ := hs
  have hb : (frameBody s.loaded s.checksum).length = s.length.toNat + 2 := by
    rw [frameBody_length, s.loaded_length hl]
  have hst := staleBody_length_le s.escapePending ((frameBody s.loaded s.checksum).drop (s.cursor.toNat - 1))
  rw [List.length_drop, hb] at hst
  unfold State.drainBound
  obtain h0 | h1 := Nat.eq_zero_or_pos s.cursor.toNat
  · rw [h0] at hst
    simp only [s.remaining_start h0, List.length_cons, List.length_append, List.length_nil]
    simp only [Nat.zero_sub, List.drop_zero] at hst
    omega
  obtain h2 | h3 := Nat.lt_or_ge (s.length.toNat + 3) s.cursor.toNat
  · rw [s.remaining_done h2, List.length_nil]
    omega
  · rw [s.remaining_inside h1 h3, List.length_append, List.length_singleton]
    omega

/-- What remains at the start of a frame with the flag down is the frame (R109). -/
theorem State.ReadyToDrain.remaining_eq {s : State} (h : s.ReadyToDrain) : s.remaining = frame s.loaded s.checksum := by
  obtain ⟨-, hc, hf⟩ := h
  rw [s.remaining_start (by simp [hc]), hf, staleBody_false, frame]

theorem State.ReadyToDrain.inv {s : State} (h : s.ReadyToDrain) : s.Inv :=
  have ⟨hl, hc, _⟩ := h
  State.inv_of_cursor_zero hl hc

/-- A drain of a whole frame that starts with the flag down, as one equation (R109, R110). -/
theorem State.ReadyToDrain.drain_eq {s : State} (h : s.ReadyToDrain) {k : Nat}
    (hk : (frame s.loaded s.checksum).length < k) :
    drain k s = .next { s with
      cursor := s.length + 4,
      responsePort := s.responsePort ++ (frame s.loaded s.checksum).map .byte ++ [.exhausted] } := by
  rw [← h.remaining_eq] at hk ⊢
  obtain ⟨t, ht, hframe, hc, he, hr⟩ := drain_remaining k s h.inv hk
  obtain ⟨hl, -, hf⟩ := h
  have hcur : t.cursor = s.length + 4 := BitVec.eq_of_toNat_eq (by simp [hc]; omega)
  have hflag : t.escapePending = s.escapePending := by
    rw [hf]
    exact (he (State.escOk_of_flag_down hf)).flag_down_outside_body (.inr (by rw [hc, hframe]; simp))
  rw [ht, hframe, hcur, hflag, hr]

theorem State.ReadyToDrain.frame_length_lt {s : State} (h : s.ReadyToDrain) :
    (frame s.loaded s.checksum).length < s.drainBound :=
  h.remaining_eq ▸ s.remaining_length_lt h.inv

/-- Settles O42: LOAD leaves a state that is ready to drain, with the data loaded and the register as it was. -/
theorem unfinalizedDrainCarriesTheOldChecksum : Obligations.UnfinalizedDrainCarriesTheOldChecksum := by
  intro s d hd hf
  have hready : ((s.loadPayload d).respond .ack).ReadyToDrain := ⟨(s.loadPayload_inv hd).1, rfl, hf⟩
  refine ⟨_, _, exec_load_accepted s hd, hready.drain_eq hready.frame_length_lt, ?_, rfl⟩
  rw [State.respond_loaded, s.loadPayload_loaded hd]
  rfl

/-- Settles O1: the power-on state is ready to drain whatever the buffer holds, and the frame of the empty payload with
the register 0x0000 is C0 00 00 C0. -/
theorem powerOnValues : Obligations.PowerOnValues := by
  refine ⟨rfl, rfl, rfl, rfl, fun p c out => ?_⟩
  have hframe : frame [] State.reset.checksum = [0xC0, 0x00, 0x00, 0xC0] := by decide
  have hready : State.ReadyToDrain { State.reset with payload := p, config := c, responsePort := out } :=
    ⟨Nat.zero_le 32, rfl, rfl⟩
  have hloaded : State.loaded { State.reset with payload := p, config := c, responsePort := out } = [] := rfl
  rw [hready.drain_eq (k := 5) (by rw [hloaded, hframe]; decide), hloaded, hframe]
  rw [List.append_assoc]
  rfl

end Sys2Proof.Machine
end

section
/-! The order of a command stream (20_memory.md R50): a port that holds the encodings of commands runs them one at a
time, because the decoder takes exactly one command's bytes off it and no command reads what waits behind. -/

namespace Sys2Proof.Machine

/-! ## Decoding the bytes of a command -/

theorem decode_load_opcode (bytes : List Byte) : decode (0x01#8 :: bytes) = decodeLoad bytes := by
  have hf : formOf 0x01#8 = some .op8Len8Data := rfl
  simp only [decode, hf]

/-- LOAD's count byte is the number of its data bytes, so the decoder splits the port where the data end (R66). -/
theorem decodeLoad_count_data {d : List Byte} (h : d.length ≤ 255) (rest : List Byte) :
    decodeLoad (BitVec.ofNat 8 d.length :: (d ++ rest)) = .command (.load d) rest := by
  have hn : (BitVec.ofNat 8 d.length).toNat = d.length := by
    rw [BitVec.toNat_ofNat]
    omega
  simp [decodeLoad, hn]

/-- A port that starts with the bytes of a command decodes to it, with the bytes after it left over (R64 to R66). -/
theorem decode_encode_append {i : Instr} (h : i.wf = true) (rest : List Byte) :
    decode (encode i ++ rest) = .command i rest := by
  cases i with
  | reset => rfl
  | load d => exact (decode_load_opcode _).trans (decodeLoad_count_data (of_decide_eq_true h) rest)
  | finalize => rfl
  | pull => rfl
  | pingRequest => rfl
  | pingConfirm => rfl

/-! ## Runs -/

theorem andThen_assoc (o : Host.Outcome State Fault Refusal) (f g : State → Host.Outcome State Fault Refusal) :
    andThen (andThen o f) g = andThen o fun t => andThen (f t) g := by
  cases o <;> rfl

/-- A command that waits first executes as it does without a port, and leaves the bytes behind it waiting (R50). -/
theorem step_setCommandPort_encode {i : Instr} (h : i.wf = true) (s : State) (rest : List Byte) :
    step (s.setCommandPort (encode i ++ rest)) = andThen (exec i s) fun t => .next (t.setCommandPort rest) :=
  (step_of_command (decode_encode_append h rest)).trans (exec_setCommandPort i s rest)

/-- As many steps as commands wait execute them in issue order. -/
theorem runSteps_encoded (is : List Instr) (s : State) (rest : List Byte) (h : ∀ i ∈ is, i.wf = true) :
    runSteps is.length (s.setCommandPort (is.flatMap encode ++ rest)) = execAll is (s.setCommandPort rest) := by
  induction is generalizing s with
  | nil => rfl
  | cons i is ih =>
    obtain ⟨hi, his⟩ := List.forall_mem_cons.mp h
    rw [List.length_cons, runSteps_succ, List.flatMap_cons, List.append_assoc, step_setCommandPort_encode hi,
      execAll_cons, exec_setCommandPort, andThen_assoc, andThen_assoc]
    exact congrArg (andThen (exec i s)) (funext fun t => ih t his)

/-- Settles O13: `setCommandPort` is the update of the one field that the statement writes out. -/
theorem commandsRunInIssueOrder : Obligations.CommandsRunInIssueOrder :=
  runSteps_encoded

end Sys2Proof.Machine
end

section
/-! What a command does when it is repeated (20_memory.md R47). -/

namespace Sys2Proof.Machine

/-! ## The idempotent commands -/

/-- RESET's value for the flag is the one it leaves (R80), under both values of the parameter. -/
theorem State.escapeAfterReset_setEscapePending (s : State) :
    (s.setEscapePending s.escapeAfterReset).escapeAfterReset = s.escapeAfterReset := by
  cases h : s.config.resetClearsEsc <;> simp [State.escapeAfterReset, h]

theorem exec_reset_repeated {s t : State} (h : exec .reset s = .next t) : exec .reset t = .next (t.respond .ack) := by
  rw [exec_reset] at h
  obtain rfl := Host.Outcome.next.inj h
  have he : ((((s.setCursor 0).setLength 0).setEscapePending s.escapeAfterReset).respond .ack).escapeAfterReset =
      s.escapeAfterReset := s.escapeAfterReset_setEscapePending
  rw [exec_reset, he]
  rfl

theorem exec_finalize_repeated {s t : State} (h : exec .finalize s = .next t) :
    exec .finalize t = .next (t.respond .ack) := by
  obtain ⟨hl, rfl⟩ := exec_finalize_next h
  exact exec_finalize _ hl

/-- The data are already stored, counted, and the cursor at the start. -/
theorem State.loadPayload_respond_loadPayload (s : State) (d : List Byte) (r : Response) :
    ((s.loadPayload d).respond r).loadPayload d = (s.loadPayload d).respond r := by
  have hp : Payload.store (s.loadPayload d).payload d = (s.loadPayload d).payload := Payload.store_store s.payload d
  show ((s.loadPayload d).respond r).setPayload (Payload.store (s.loadPayload d).payload d) = _
  rw [hp]
  rfl

theorem exec_load_repeated {s t : State} {d : List Byte} (hd : d.length ≤ 32) (h : exec (.load d) s = .next t) :
    exec (.load d) t = .next (t.respond .ack) := by
  rw [exec_load_accepted s hd] at h
  obtain rfl := Host.Outcome.next.inj h
  rw [exec_load_accepted _ hd, State.loadPayload_respond_loadPayload]

/-! ## PULL -/

theorem State.advance_cursor_ne (s : State) : s.advance.cursor ≠ s.cursor := by
  rw [State.advance_cursor]
  bv_omega

/-- An escape step raises the flag or advances. -/
theorem State.escapeStep_changes (s : State) (b : Byte) :
    (s.escapeStep b).cursor ≠ s.cursor ∨ (s.escapeStep b).escapePending ≠ s.escapePending := by
  obtain ⟨-, hs⟩ | ⟨_, -, hf, hs⟩ | ⟨_, -, -, hs⟩ := s.escapeStep_cases b <;> rw [hs]
  · exact .inl s.advance_cursor_ne
  · exact .inr (by simp [hf])
  · exact .inl s.advance_cursor_ne

/-- A PULL changes `cursor` or `escapePending` exactly where the frame has a position left. No premise I-LEN: also where
`length + 4` wraps, it is one more than the cursor at END. -/
theorem exec_pull_changes_iff {s t : State} (h : exec .pull s = .next t) :
    (t.cursor ≠ s.cursor ∨ t.escapePending ≠ s.escapePending) ↔ s.cursor.toNat ≤ s.length.toNat + 3 := by
  obtain ⟨hc, rfl⟩ | ⟨-, h2, b, -, rfl⟩ | ⟨hc, rfl⟩ | ⟨hc, rfl⟩ := exec_pull_next h
  · have hne : (1 : BitVec 6) ≠ s.cursor := by bv_omega
    exact iff_of_true (.inl hne) (by omega)
  · exact iff_of_true (s.escapeStep_changes b) (by omega)
  · have hne : s.length + 4 ≠ s.cursor := by bv_omega
    exact iff_of_true (.inl hne) (by omega)
  · exact iff_of_false (by simp [State.pullDone]) (by omega)

/-- Settles O26: each idempotent command by its own lemma, a rejected LOAD by `exec_load_rejected`, PULL by
its position. -/
theorem repeatedCommands : Obligations.RepeatedCommands := by
  intro s t
  refine ⟨?_, ?_, exec_pull_changes_iff⟩
  · rintro i (rfl | rfl | ⟨d, rfl, hd⟩) h
    · exact exec_reset_repeated h
    · exact exec_finalize_repeated h
    · exact exec_load_repeated hd h
  · intro d hd h
    rw [exec_load_rejected s hd] at h
    obtain rfl := Host.Outcome.next.inj h
    rfl

end Sys2Proof.Machine
end

section
/-! The command-port encoding (30_encoding.md sections 2 to 4): decoder and encoder are each other's inverse, and a port
is a whole command, a reserved opcode or the start of a command. -/

namespace Sys2Proof.Machine

/-! ## Decode of encode and encode of decode -/

/-- Settles O7. -/
theorem decodeOfEncode : Obligations.DecodeOfEncode :=
  fun _ rest h => decode_encode_append h rest

/-- The counterpart of `decodeLoad_count_data`: what LOAD's operand bytes can be. -/
theorem decodeLoad_cases (bytes : List Byte) :
    (∃ d rest, bytes = operandBytes (.load d) ++ rest ∧ countFits d ∧
      decodeLoad bytes = .command (.load d) rest) ∨
    decodeLoad bytes = .incomplete := by
  cases bytes with
  | nil => exact .inr rfl
  | cons n bytes =>
    obtain h | h := Nat.lt_or_ge bytes.length n.toNat
    · exact .inr (decodeLoad_short h)
    · have hlen : (bytes.take n.toNat).length = n.toNat := List.length_take_of_le h
      refine .inl ⟨_, _, ?_, ?_, decodeLoad_enough h⟩
      · simp [operandBytes, h]
      · rw [countFits, hlen]
        exact Nat.le_of_lt_succ n.isLt

/-- Everything the decoder can answer, with what the bytes then are (R64, R69). -/
theorem decode_cases (bytes : List Byte) :
    (∃ i rest, bytes = encode i ++ rest ∧ i.wf = true ∧ decode bytes = .command i rest) ∨
    (∃ opcode rest, bytes = opcode :: rest ∧ 6 ≤ opcode.toNat ∧ decode bytes = .invalid opcode) ∨
    decode bytes = .incomplete := by
  cases bytes with
  | nil => exact .inr (.inr rfl)
  | cons opcode bytes =>
    cases hf : formOf opcode with
    | none =>
      have h := (formOf_eq_none_iff opcode).mp hf
      exact .inr (.inl ⟨opcode, bytes, rfl, h, decode_reserved h bytes⟩)
    | some form =>
      cases form with
      | op8 i =>
        obtain ⟨he, hw⟩ := formOf_op8 hf
        exact .inl ⟨i, bytes, by rw [he]; rfl, hw, by simp only [decode, hf]⟩
      | op8Len8Data =>
        obtain rfl := formOf_op8Len8Data opcode hf
        obtain ⟨d, rest, rfl, hd, h⟩ | h := decodeLoad_cases bytes
        · exact .inl ⟨.load d, rest, rfl, decide_eq_true hd, (decode_load _).trans h⟩
        · exact .inr (.inr ((decode_load _).trans h))

/-- Settles O8: `decode_cases` with the one verdict that is a command. -/
theorem encodeOfDecode : Obligations.EncodeOfDecode := by
  intro bytes rest i h
  obtain ⟨j, rest', hb, hw, hd⟩ | ⟨_, _, -, -, hd⟩ | hd := decode_cases bytes <;> rw [hd] at h <;> cases h
  exact ⟨hb, hw⟩

/-- Settles O9: each word is the encoding of its command, followed by the bytes left over. -/
theorem specWordsDecode : Obligations.SpecWordsDecode :=
  ⟨decode_encode_append (i := .reset) rfl [],
    decode_encode_append (i := .load [0x21, 0xDB]) rfl [0x02],
    decode_encode_append (i := .load []) rfl [],
    decode_encode_append (i := .finalize) rfl [],
    decode_encode_append (i := .pull) rfl [0x03],
    decode_encode_append (i := .pingRequest) rfl [],
    decode_encode_append (i := .pingConfirm) rfl []⟩

/-- An encoding stands in front of the port as the next command. -/
theorem step_offer_encode {i : Instr} (h : i.wf = true) (s : State) : step (s.offer (encode i)) = exec i s :=
  step_of_command (decode_encode_append h s.commandPort)

/-- Settles O14: the bytes of each table word are the encoding of its row's command. -/
theorem tableWordsRunNext : Obligations.TableWordsRunNext := fun s =>
  ⟨step_offer_encode (i := .reset) rfl s, step_offer_encode (i := .load []) rfl s,
    step_offer_encode (i := .finalize) rfl s, step_offer_encode (i := .pull) rfl s,
    step_offer_encode (i := .pingRequest) rfl s, step_offer_encode (i := .pingConfirm) rfl s⟩

/-! ## Reserved opcodes -/

theorem step_of_reserved {s : State} {opcode : Byte} {rest : List Byte} (hp : s.commandPort = opcode :: rest)
    (h : 6 ≤ opcode.toNat) : step s = .refused (.reservedOpcode opcode) := by
  have hf : s.fetch = .invalid opcode := by rw [State.fetch, hp, decode_reserved h]
  rw [step, hf]
  rfl

/-- Settles O10: the first step of the run is refused, and a refusal ends the run. -/
theorem reservedOpcodeIsRefused : Obligations.ReservedOpcodeIsRefused := by
  intro opcode rest h
  refine ⟨decode_reserved h rest, fun s k hp => ?_⟩
  rw [runSteps_succ, step_of_reserved hp h]
  rfl

/-- With I-LEN every command answers a next state (R163, R166). -/
theorem exec_completes (i : Instr) {s : State} (hl : s.LenOk) : ∃ t, exec i s = .next t := by
  cases i with
  | reset => exact ⟨_, rfl⟩
  | load d => obtain ⟨-, h⟩ | ⟨-, h⟩ := exec_load_cases s d <;> exact ⟨_, h⟩
  | finalize => exact ⟨_, exec_finalize s hl⟩
  | pull =>
    obtain ⟨-, h⟩ | ⟨-, -, ⟨_, -, h⟩ | ⟨-, hlt, -⟩⟩ | ⟨-, h⟩ | ⟨-, h⟩ := exec_pull_cases s
    · exact ⟨_, h⟩
    · exact ⟨_, h⟩
    · exact absurd hl (Nat.not_le.mpr hlt)
    · exact ⟨_, h⟩
    · exact ⟨_, h⟩
  | pingRequest => exact ⟨_, rfl⟩
  | pingConfirm => exact ⟨_, rfl⟩

/-- Settles O5: by the decoder's verdict; a whole command completes, because I-LEN does not read the port. -/
theorem stepStopsOnlyAtReservedOpcode : Obligations.StepStopsOnlyAtReservedOpcode := by
  intro s hl
  refine ⟨?_, fun b rest => step_of_reserved⟩
  obtain ⟨i, rest, -, -, hd⟩ | ⟨b, rest, hp, hb, -⟩ | hd := decode_cases s.commandPort
  · obtain ⟨t, ht⟩ := exec_completes i (s := s.setCommandPort rest) hl
    exact .inr ⟨t, (step_of_command hd).trans ht⟩
  · exact .inl ⟨b, rest, hp, hb, step_of_reserved hp hb⟩
  · exact .inr ⟨s, step_of_incomplete hd⟩

/-! ## Commands that have not arrived whole -/

/-- A block whose port holds no whole command stays as it is for any number of steps (R171). -/
theorem runSteps_of_incomplete {s : State} (h : decode s.commandPort = .incomplete) (k : Nat) :
    runSteps k s = .next s := by
  induction k with
  | zero => rfl
  | succ k ih => rw [runSteps_succ, step_of_incomplete h, andThen_next, ih]

/-- Settles O11. -/
theorem truncatedLoadIsNotExecuted : Obligations.TruncatedLoadIsNotExecuted := by
  refine ⟨fun i => ?_, fun s k h => runSteps_of_incomplete ?_ k⟩
  · cases i with
    | reset => exact .inl rfl
    | load d => exact .inr ⟨d, rfl, Nat.add_comm d.length 2⟩
    | finalize => exact .inl rfl
    | pull => exact .inl rfl
    | pingRequest => exact .inl rfl
    | pingConfirm => exact .inl rfl
  · obtain hp | ⟨n, d, hp, hd⟩ := h <;> rw [hp]
    · rfl
    · exact (decode_load _).trans (decodeLoad_short hd)

/-- No command's bytes start those of another: a part of an encoding that lacks its end is neither a whole command nor a
reserved opcode. -/
theorem decode_of_encode_cut {i : Instr} (h : i.wf = true) {p q : List Byte} (he : encode i = p ++ q) (hq : q ≠ []) :
    decode p = .incomplete := by
  have hwhole : decode (p ++ q) = .command i [] := by
    rw [← he, ← decode_encode_append h [], List.append_nil]
  obtain ⟨j, rest, rfl, hj, -⟩ | ⟨opcode, rest, rfl, ho, -⟩ | hd := decode_cases p
  · rw [List.append_assoc, decode_encode_append hj] at hwhole
    obtain ⟨-, hnil⟩ := Decoded.command.inj hwhole
    exact absurd (List.append_eq_nil_iff.mp hnil).2 hq
  · rw [List.cons_append, decode_reserved ho] at hwhole
    cases hwhole
  · exact hd

/-- Settles O12: the block idles on the first part, and the rest completes the encoding. -/
theorem commandWaitsForAllItsBytes : Obligations.CommandWaitsForAllItsBytes := by
  intro s i p q hw he hq hp
  refine ⟨runSteps_of_incomplete (hp ▸ decode_of_encode_cut hw he hq), ?_⟩
  have hd : decode (s.deliver q).commandPort = .command i [] := by
    rw [State.deliver_commandPort, hp, ← he, ← decode_encode_append hw [], List.append_nil]
  exact step_of_command hd

end Sys2Proof.Machine
end

section
/-! The response port (30_encoding.md R67, R68): which response each command gives, and how the bytes are read back. -/

namespace Sys2Proof.Machine

/-! ## One response per command -/

theorem State.escapeStep_responsePort (s : State) (b : Byte) :
    ∃ c, (s.escapeStep b).responsePort = s.responsePort ++ [.byte c] := by
  obtain ⟨-, hs⟩ | ⟨_, -, -, hs⟩ | ⟨_, -, -, hs⟩ := s.escapeStep_cases b <;> rw [hs] <;> exact ⟨_, rfl⟩

/-- A PULL answers one byte up to END, and Exhausted at DONE. -/
theorem exec_pull_responsePort {s t : State} (h : exec .pull s = .next t) :
    (s.cursor.toNat ≤ s.length.toNat + 3 ∧ ∃ b, t.responsePort = s.responsePort ++ [.byte b]) ∨
    (s.length.toNat + 3 < s.cursor.toNat ∧ t.responsePort = s.responsePort ++ [.exhausted]) := by
  obtain ⟨hc, rfl⟩ | ⟨-, h2, b, -, rfl⟩ | ⟨hc, rfl⟩ | ⟨hc, rfl⟩ := exec_pull_next h
  · exact .inl ⟨by omega, _, rfl⟩
  · exact .inl ⟨by omega, s.escapeStep_responsePort b⟩
  · exact .inl ⟨by omega, _, rfl⟩
  · exact .inr ⟨hc, rfl⟩

/-- The one response of each command that answers a next state (R67). -/
theorem exec_responsePort {i : Instr} {s t : State} (h : exec i s = .next t) :
    (i ≠ .pull ∧ (∀ d, i = .load d → d.length ≤ 32) ∧ t.responsePort = s.responsePort ++ [.ack]) ∨
    (∃ d, i = .load d ∧ 32 < d.length ∧ t.responsePort = s.responsePort ++ [.error .bufferOverflow]) ∨
    (i = .pull ∧ s.cursor.toNat ≤ s.length.toNat + 3 ∧ ∃ b, t.responsePort = s.responsePort ++ [.byte b]) ∨
    (i = .pull ∧ s.length.toNat + 3 < s.cursor.toNat ∧ t.responsePort = s.responsePort ++ [.exhausted]) := by
  cases i with
  | reset =>
    obtain rfl := Host.Outcome.next.inj h
    exact .inl ⟨nofun, nofun, rfl⟩
  | load d =>
    obtain ⟨hd, rfl⟩ | ⟨hd, rfl⟩ := exec_load_next h
    · exact .inl ⟨nofun, fun _ he => Instr.load.inj he ▸ hd, rfl⟩
    · exact .inr (.inl ⟨d, rfl, hd, rfl⟩)
  | finalize =>
    obtain ⟨-, rfl⟩ := exec_finalize_next h
    exact .inl ⟨nofun, nofun, rfl⟩
  | pull =>
    obtain ⟨hc, hr⟩ | ⟨hc, hr⟩ := exec_pull_responsePort h
    · exact .inr (.inr (.inl ⟨rfl, hc, hr⟩))
    · exact .inr (.inr (.inr ⟨rfl, hc, hr⟩))
  | pingRequest =>
    obtain rfl := Host.Outcome.next.inj h
    exact .inl ⟨nofun, nofun, rfl⟩
  | pingConfirm =>
    obtain rfl := Host.Outcome.next.inj h
    exact .inl ⟨nofun, nofun, rfl⟩

/-- Settles O15: `exec_responsePort` gives the response and its row; the other kinds ask nothing. -/
theorem oneResponsePerCommand : Obligations.OneResponsePerCommand := by
  refine ⟨fun i s t h => ?_, rfl, fun _ => rfl, rfl, fun _ => rfl⟩
  obtain ⟨hp, hd, hr⟩ | ⟨d, hi, hd, hr⟩ | ⟨hi, hc, b, hr⟩ | ⟨hi, hc, hr⟩ := exec_responsePort h
  · exact ⟨.ack, hr, fun _ => ⟨hp, hd⟩, nofun, nofun, nofun⟩
  · exact ⟨.error .bufferOverflow, hr, nofun, nofun, nofun, fun _ => ⟨d, hi, hd⟩⟩
  · exact ⟨.byte b, hr, nofun, fun _ => ⟨hi, hc⟩, nofun, nofun⟩
  · exact ⟨.exhausted, hr, nofun, nofun, fun _ => ⟨hi, hc⟩, nofun⟩

/-! ## The bytes of a response, read back -/

/-- Settles O16. -/
theorem errorKindsAndCodes : Obligations.ErrorKindsAndCodes := by
  refine ⟨rfl, rfl, rfl, rfl, rfl, fun e => ?_⟩
  cases e <;> decide

/-- The error kind of a code, `none` for a byte that is no code (R68). -/
def kindOfCode (code : Byte) : Option ErrorKind :=
  [.badChecksum, .badHeader, .bufferOverflow, .fileNotFound, .badOffset].find? fun e => e.code == code

theorem kindOfCode_code (e : ErrorKind) : kindOfCode e.code = some e := by
  cases e <;> decide

/-- The caller's reading of the response port: the first response and the bytes after it (R67). -/
def readResponse : List Byte → Option (Response × List Byte)
  | 0x00#8 :: rest => some (.ack, rest)
  | 0x01#8 :: b :: rest => some (.byte b, rest)
  | 0x02#8 :: rest => some (.exhausted, rest)
  | 0x03#8 :: code :: rest => (kindOfCode code).map fun e => (.error e, rest)
  | _ => none

/-- Reading takes exactly the bytes of the first response. -/
theorem readResponse_encodeResponse (r : Response) (rest : List Byte) :
    readResponse (encodeResponse r ++ rest) = some (r, rest) := by
  cases r with
  | ack => rfl
  | byte b => rfl
  | exhausted => rfl
  | error e => exact congrArg (Option.map fun k => (Response.error k, rest)) (kindOfCode_code e)

/-- Settles O17: `readResponse` finds both responses, with their rests, in the same bytes. -/
theorem responseBytesAreUnambiguous : Obligations.ResponseBytesAreUnambiguous := by
  intro r r' x y h
  have hread : some (r, x) = some (r', y) := by
    rw [← readResponse_encodeResponse r x, h, readResponse_encodeResponse]
  exact Prod.mk.inj (Option.some.inj hread)

end Sys2Proof.Machine
end

section
/-! The pseudo-commands SEND and DRAIN (30_encoding.md R72), and the delimiters of a frame (R63). -/

namespace Sys2Proof.Machine

/-! ## SEND and DRAIN -/

/-- SEND of an accepted payload as one equation: its FINALIZE reads back the bytes that its LOAD stored. -/
theorem execAll_sendCommands (s : State) {d : List Byte} (h : d.length ≤ 32) :
    execAll (sendCommands d) s =
      .next (((((s.loadPayload d).respond .ack).setChecksum (crc16X25 d)).rewind).respond .ack) := by
  have hl : ((s.loadPayload d).respond .ack).LenOk := (s.loadPayload_inv h).1
  rw [sendCommands, execAll_cons, exec_load_accepted s h, andThen_next, execAll_cons, exec_finalize _ hl,
    State.respond_loaded, s.loadPayload_loaded h]
  rfl

/-- Settles O25. -/
theorem sendLoadsAndFinalizes : Obligations.SendLoadsAndFinalizes := by
  intro s d h
  refine ⟨_, execAll_sendCommands s h, ?_, s.loadPayload_loaded h, fun k hk => ?_⟩
  · rw [List.append_cons s.responsePort .ack [.ack]]
    rfl
  · exact Payload.store_getElem?_of_le s.payload d hk

/-- Settles O39: R72's bound exceeds the bytes that remain. -/
theorem drainEndsWithinItsBound : Obligations.DrainEndsWithinItsBound := by
  intro s hs
  obtain ⟨t, ht, hframe, hc, -, hr⟩ := drain_remaining s.drainBound s hs (s.remaining_length_lt hs)
  exact ⟨t, ht, hframe, hc, by simp [hr]⟩

/-! ## Delimiters and prefixes inside a frame -/

/-- A frame body as it stands on the wire: no delimiter, and after each 0xDB the second byte of an escape sequence
(R63). -/
def Stuffed (body : List Byte) : Prop :=
  frameEnd ∉ body ∧
  ∀ i : Nat, body[i]? = some escapePrefix → body[i + 1]? = some escapeEnd ∨ body[i + 1]? = some escapeEscape

theorem stuffed_nil : Stuffed [] := ⟨nofun, nofun⟩

theorem Stuffed.cons {b : Byte} {bs : List Byte} (h : Stuffed bs) (hend : b ≠ frameEnd)
    (hpre : b = escapePrefix → bs[0]? = some escapeEnd ∨ bs[0]? = some escapeEscape) : Stuffed (b :: bs) := by
  obtain ⟨hmem, hnext⟩ := h
  refine ⟨List.not_mem_cons_of_ne_of_not_mem hend.symm hmem, fun i hi => ?_⟩
  cases i with
  | zero => exact hpre (Option.some.inj hi)
  | succ i => exact hnext i hi

theorem Stuffed.cons_plain {b : Byte} {bs : List Byte} (h : Stuffed bs) (hb : isReserved b = false) :
    Stuffed (b :: bs) := by
  obtain ⟨hend, hpre⟩ : b ≠ frameEnd ∧ b ≠ escapePrefix := by simpa [isReserved] using hb
  exact h.cons hend fun he => absurd he hpre

/-- The spelling of one more byte keeps a body stuffed, whether or not the byte is reserved (R124). -/
theorem Stuffed.escape_append {bs : List Byte} (h : Stuffed bs) (b : Byte) : Stuffed (escape b ++ bs) := by
  cases hb : escapeOf b with
  | none =>
    rw [escape_of_none hb]
    exact h.cons_plain ((escapeOf_eq_none_iff b).mp hb)
  | some t =>
    rw [escape_of_some hb]
    obtain ⟨-, rfl⟩ | ⟨-, rfl⟩ := escapeOf_some hb
    · exact (h.cons_plain (b := escapeEnd) rfl).cons (by decide) fun _ => .inl rfl
    · exact (h.cons_plain (b := escapeEscape) rfl).cons (by decide) fun _ => .inr rfl

theorem stuffed_flatMap_escape (bytes : List Byte) : Stuffed (bytes.flatMap escape) := by
  induction bytes with
  | nil => exact stuffed_nil
  | cons b bs ih => exact ih.escape_append b

/-- Settles O47: what stands between the delimiters is the spelling of the frame body. -/
theorem delimitersOnlyAtTheEnds : Obligations.DelimitersOnlyAtTheEnds := fun payload checksum =>
  ⟨(frameBody payload checksum).flatMap escape, rfl, stuffed_flatMap_escape _⟩

end Sys2Proof.Machine
end

section
/-! The control commands RESET, LOAD and FINALIZE (40_control.md R80 to R82): each effect as one equation, its frame
included. -/

namespace Sys2Proof.Machine

/-! ## The empty payload -/

/-- Nothing is loaded in a state whose `length` is 0, whatever the buffer holds (R22). -/
theorem State.loaded_of_length_zero {s : State} (h : s.length = 0) : s.loaded = [] := by
  simp [State.loaded, h]

/-- The checksum of no bytes: the final XOR undoes the initial value (R130, R136). -/
theorem crc16X25_nil : crc16X25 [] = 0x0000 := by decide

/-- The drain of an empty payload: its frame has at most six bytes, each checksum byte an escape sequence (R80, R109). -/
theorem State.ReadyToDrain.drain_empty {s : State} (h : s.ReadyToDrain) (h0 : s.length = 0) :
    drain 7 s = .next { s with
      cursor := 4,
      responsePort := s.responsePort ++ (frame [] s.checksum).map .byte ++ [.exhausted] } := by
  have hbound : s.drainBound = 7 := by simp [State.drainBound, h0]
  rw [← hbound, h.drain_eq h.frame_length_lt, State.loaded_of_length_zero h0, h0]
  rfl

/-! ## RESET -/

/-- Settles O19: a second RESET by `exec_reset_repeated`; with the flag down the state is ready to drain. -/
theorem resetEffect : Obligations.ResetEffect := by
  refine ⟨rfl, fun s => ⟨_, exec_reset s, rfl, exec_reset_repeated (exec_reset s), fun hf => ?_⟩⟩
  exact State.ReadyToDrain.drain_empty ⟨Nat.zero_le 32, rfl, hf⟩ rfl

/-! ## LOAD -/

/-- Settles O20: the two sides of R81's bound, and the buffer by the laws of `Payload.store`. -/
theorem loadEffect : Obligations.LoadEffect := by
  refine fun s d => ⟨rfl, exec_load_rejected s, fun hd => ⟨_, exec_load_accepted s hd, rfl, countOf_toNat hd, ?_, ?_⟩⟩
  · exact fun k hk => Payload.store_getElem?_of_lt s.payload d hk hd
  · exact fun k hk => Payload.store_getElem?_of_le s.payload d hk

/-! ## FINALIZE -/

/-- Settles O21: I-LEN lets FINALIZE read what is loaded, and repeating it is `exec_finalize_repeated`. -/
theorem finalizeEffect : Obligations.FinalizeEffect := by
  refine ⟨rfl, fun s hl => ⟨_, exec_finalize s hl, rfl, fun h0 => ?_, exec_finalize_repeated (exec_finalize s hl)⟩⟩
  show crc16X25 s.loaded = 0x0000
  rw [State.loaded_of_length_zero h0, crc16X25_nil]

end Sys2Proof.Machine
end

section
/-! PULL, one position at a time (41_pull.md R101 to R107): where the cursor stands, which byte is due there, and what the
one PULL does. -/

namespace Sys2Proof.Machine

/-! ## The position and the body byte (R101) -/

/-- Each position exactly where R101 puts it: `position_cases` read in both directions. -/
theorem position_eq_iff (c n : Nat) :
    (position c n = .start ↔ c = 0) ∧
    (∀ i, position c n = .payload i ↔ 1 ≤ c ∧ c ≤ n ∧ i = c - 1) ∧
    (position c n = .checksumHigh ↔ c = n + 1) ∧
    (position c n = .checksumLow ↔ c = n + 2) ∧
    (position c n = .endDelimiter ↔ c = n + 3) ∧
    (position c n = .done ↔ n + 3 < c) := by
  obtain ⟨hc, hp⟩ | ⟨h1, hn, hp⟩ | ⟨hc, hp⟩ | ⟨hc, hp⟩ | ⟨hc, hp⟩ | ⟨hc, hp⟩ := position_cases c n <;>
    simp only [hp, reduceCtorEq, Position.payload.injEq, true_iff, false_iff] <;>
    exact ⟨by omega, fun i => by omega, by omega, by omega, by omega, by omega⟩

/-- The checksum's high byte as R41 writes it. -/
theorem highByte_eq (c : Word16) : highByte c = (c >>> 8).setWidth 8 := by
  ext i
  simp [highByte]

theorem lowByte_eq (c : Word16) : lowByte c = c.setWidth 8 := by
  ext i
  simp [lowByte]

section Position

variable {s : State}

theorem State.position_start (h : s.cursor.toNat = 0) : s.position = .start :=
  have ⟨hstart, _⟩ := position_eq_iff s.cursor.toNat s.length.toNat
  hstart.mpr h

theorem State.position_end (h : s.cursor.toNat = s.length.toNat + 3) : s.position = .endDelimiter :=
  have ⟨_, _, _, _, hend, _⟩ := position_eq_iff s.cursor.toNat s.length.toNat
  hend.mpr h

theorem State.position_done (h : s.length.toNat + 3 < s.cursor.toNat) : s.position = .done :=
  have ⟨_, _, _, _, _, hdone⟩ := position_eq_iff s.cursor.toNat s.length.toNat
  hdone.mpr h

theorem State.bodyByte_payload (h1 : 1 ≤ s.cursor.toNat) (hn : s.cursor.toNat ≤ s.length.toNat) :
    s.bodyByte = s.payload[s.cursor.toNat - 1]? := by
  obtain ⟨-, hpayload, -⟩ := position_eq_iff s.cursor.toNat s.length.toNat
  have hp : s.position = .payload (s.cursor.toNat - 1) := (hpayload _).mpr ⟨h1, hn, rfl⟩
  simp only [State.bodyByte, hp, State.readByte]

theorem State.bodyByte_checksumHigh (h : s.cursor.toNat = s.length.toNat + 1) :
    s.bodyByte = some ((s.checksum >>> 8).setWidth 8) := by
  obtain ⟨-, -, hhigh, -⟩ := position_eq_iff s.cursor.toNat s.length.toNat
  have hp : s.position = .checksumHigh := hhigh.mpr h
  simp only [State.bodyByte, hp, highByte_eq]

theorem State.bodyByte_checksumLow (h : s.cursor.toNat = s.length.toNat + 2) :
    s.bodyByte = some (s.checksum.setWidth 8) := by
  obtain ⟨-, -, -, hlow, -⟩ := position_eq_iff s.cursor.toNat s.length.toNat
  have hp : s.position = .checksumLow := hlow.mpr h
  simp only [State.bodyByte, hp, lowByte_eq]

end Position

/-- Settles O30: I-LEN gives the payload byte its index in the buffer. -/
theorem positionTable : Obligations.PositionTable := by
  refine ⟨position_eq_iff, fun s hl => ⟨fun h1 hn => ?_, State.bodyByte_checksumHigh, State.bodyByte_checksumLow⟩⟩
  have hl' : s.length.toNat ≤ 32 := hl
  obtain ⟨b, hb⟩ := s.readByte_isSome (i := s.cursor.toNat - 1) (by omega)
  exact ⟨b, hb, (State.bodyByte_payload h1 hn).trans hb⟩

/-! ## PULL at a delimiter (R102, R106) -/

/-- Settles O31. -/
theorem pullAtStart : Obligations.PullAtStart := fun s h =>
  exec_pull_start s (State.position_start (by simp [h]))

/-- Where I-LEN holds, the cursor that PULL sets at END does not wrap. -/
theorem State.length_add_four_toNat {s : State} (h : s.LenOk) : (s.length + 4).toNat = s.length.toNat + 4 := by
  have hl : s.length.toNat ≤ 32 := h
  simp only [BitVec.toNat_add, BitVec.reduceToNat]
  omega

/-- Settles O33. -/
theorem pullAtEnd : Obligations.PullAtEnd := fun s hl hc =>
  ⟨_, exec_pull_end s (State.position_end hc), rfl, State.length_add_four_toNat hl⟩

/-! ## PULL at a body position (R103 to R105) -/

theorem isReserved_iff (b : Byte) : isReserved b = true ↔ b = 0xC0 ∨ b = 0xDB := by
  simp [isReserved, frameEnd, escapePrefix]

/-- The counterpart of `escapeOf_eq_none_iff` for a reserved byte, with R121's value. -/
theorem escapeOf_of_reserved {b : Byte} (h : isReserved b = true) :
    escapeOf b = some (if b = 0xC0 then 0xDC else 0xDD) := by
  obtain rfl | rfl := (isReserved_iff b).mp h <;> rfl

/-- Settles O32: the byte due is the body byte, and the escape step on it has one lemma for each case of R122. -/
theorem pullAtBodyPositions : Obligations.PullAtBodyPositions := by
  intro s b hpos
  have hb : s.bodyByte = some b := by
    obtain ⟨h1, hn, hb⟩ | ⟨hc, rfl⟩ | ⟨hc, rfl⟩ := hpos
    · exact (State.bodyByte_payload h1 hn).trans hb
    · exact State.bodyByte_checksumHigh hc
    · exact State.bodyByte_checksumLow hc
  rw [exec_pull_body s hb]
  refine ⟨isReserved_iff b, fun hr => ?_, fun hr hf => ?_, fun hr hf => ?_⟩
  · rw [s.escapeStep_plain ((escapeOf_eq_none_iff b).mpr hr)]
    rfl
  · rw [s.escapeStep_prefix (escapeOf_of_reserved hr) hf]
    rfl
  · rw [s.escapeStep_transformed (escapeOf_of_reserved hr) hf]
    rfl

/-! ## PULL at DONE (R107) -/

theorem exec_pull_past_end {s : State} (h : s.length.toNat + 3 < s.cursor.toNat) :
    exec .pull s = .next (s.respond .exhausted) :=
  exec_pull_done s (State.position_done h)

/-- DONE is left by no PULL. -/
theorem execAll_pulls_past_end (k : Nat) {s : State} (h : s.length.toNat + 3 < s.cursor.toNat) :
    execAll (List.replicate k .pull) s =
      .next { s with responsePort := s.responsePort ++ List.replicate k .exhausted } := by
  induction k generalizing s with
  | zero => simp
  | succ k ih =>
    rw [List.replicate_succ, execAll_cons, exec_pull_past_end h, andThen_next, ih (s := s.respond .exhausted) h,
      List.replicate_succ, List.append_cons s.responsePort]
    rfl

/-- Every other command, a LOAD when it is accepted, rewinds, whatever becomes of the flag. -/
theorem exec_cursor_of_rewinds {i : Instr} {s t : State} (hp : i ≠ .pull) (hd : ∀ d, i = .load d → d.length ≤ 32)
    (h : exec i s = .next t) : t.cursor = 0 := by
  cases i with
  | reset =>
    obtain rfl := Host.Outcome.next.inj h
    rfl
  | load d =>
    rw [exec_load_accepted s (hd d rfl)] at h
    obtain rfl := Host.Outcome.next.inj h
    rfl
  | finalize =>
    obtain ⟨-, rfl⟩ := exec_finalize_next h
    rfl
  | pull => exact absurd rfl hp
  | pingRequest =>
    obtain rfl := Host.Outcome.next.inj h
    rfl
  | pingConfirm =>
    obtain rfl := Host.Outcome.next.inj h
    rfl

/-- Settles O34. -/
theorem exhaustedUntilRewound : Obligations.ExhaustedUntilRewound := by
  refine fun s hl hc => ⟨fun k => execAll_pulls_past_end k hc, fun i hp hd => ?_⟩
  obtain ⟨t, ht⟩ := exec_completes i hl
  exact ⟨t, ht, exec_cursor_of_rewinds hp hd ht⟩

/-! ## PULL at any position (R100) -/

/-- A PULL leaves the cursor or moves it to the next position, without wrapping where I-LEN holds. -/
theorem exec_pull_cursor {s t : State} (hl : s.LenOk) (h : exec .pull s = .next t) :
    t.cursor = s.cursor ∨ t.cursor.toNat = s.cursor.toNat + 1 := by
  have hl' : s.length.toNat ≤ 32 := hl
  obtain ⟨hc, rfl⟩ | ⟨-, h2, b, -, rfl⟩ | ⟨hc, rfl⟩ | ⟨-, rfl⟩ := exec_pull_next h
  · exact .inr (by rw [hc]; rfl)
  · have hadv : (s.cursor + 1).toNat = s.cursor.toNat + 1 := s.advance_toNat (by omega)
    obtain ⟨-, hs⟩ | ⟨_, -, -, hs⟩ | ⟨_, -, -, hs⟩ := s.escapeStep_cases b <;> rw [hs]
    · exact .inr hadv
    · exact .inl rfl
    · exact .inr hadv
  · exact .inr (by rw [hc]; exact State.length_add_four_toNat hl)
  · exact .inl rfl

/-- Settles O36: the fields by `exec_pull_sameFrame`, the response by position, and an Exhausted changes nothing by
`exec_pull_changes_iff`. -/
theorem pullWritesOnlyCursorAndFlag : Obligations.PullWritesOnlyCursorAndFlag := by
  intro s hl
  obtain ⟨t, ht⟩ := exec_completes .pull hl
  have hframe : s.SameFrame t := exec_pull_sameFrame ht
  have hcur : s.CurOk → t.CurOk := fun hc => (exec_keeps_inv ⟨hl, hc⟩ ht).2
  obtain ⟨-, b, hr⟩ | ⟨hc, hr⟩ := exec_pull_responsePort ht
  · exact ⟨t, .byte b, ht, hr ▸ hframe, .inl ⟨b, rfl⟩, exec_pull_cursor hl ht, hcur⟩
  · have hsame : ¬ (t.cursor ≠ s.cursor ∨ t.escapePending ≠ s.escapePending) :=
      fun h => absurd ((exec_pull_changes_iff ht).mp h) (Nat.not_le.mpr hc)
    obtain ⟨hcursor, hflag⟩ : t.cursor = s.cursor ∧ t.escapePending = s.escapePending := by
      simpa only [not_or, not_not] using hsame
    exact ⟨t, .exhausted, ht, hr ▸ hframe, .inr ⟨rfl, hcursor, hflag⟩, .inl hcursor, hcur⟩

end Sys2Proof.Machine
end

section
/-! Whole frames and their first bytes (41_pull.md R109 to R112). -/

namespace Sys2Proof.Machine

/-! ## Some number of PULLs -/

/-- As many PULLs answer the bytes that remain, in order, and Exhausted once none does (R112). -/
theorem execAll_pulls_remaining (k : Nat) (s : State) (hs : s.Inv) :
    ∃ u, execAll (List.replicate k .pull) s = .next u ∧
      u.responsePort = s.responsePort ++ (s.remaining.take k).map .byte ++
        List.replicate (k - s.remaining.length) .exhausted := by
  induction k generalizing s with
  | zero => exact ⟨s, rfl, by simp⟩
  | succ k ih =>
    obtain ⟨t, ht, -, hl, hc, hrest⟩ := exec_pull_remaining s hs.1 hs.2
    obtain ⟨u, hu, hr⟩ := ih t ⟨hl, hc⟩
    refine ⟨u, by rw [List.replicate_succ, execAll_cons, ht, andThen_next, hu], ?_⟩
    obtain ⟨b, hb, hrt⟩ | ⟨hnil, rfl⟩ := hrest
    · simp [hr, hrt, hb]
    · have hnil' : (s.respond .exhausted).remaining = [] := hnil
      simp [hr, hnil', hnil, List.replicate_succ]

/-- Settles O44: what remains at the start of a frame is the frame. -/
theorem pullsEmitTheFrameInOrder : Obligations.PullsEmitTheFrameInOrder := by
  intro s k hready
  rw [← hready.remaining_eq]
  exact execAll_pulls_remaining k s hready.inv

/-! ## The length of a frame (R109) -/

theorem escape_length (b : Byte) : (escape b).length = 1 + reservedCount [b] := by
  rw [reservedCount, List.countP_singleton, ← escapeOf_isSome]
  cases h : escapeOf b with
  | none => rw [escape_of_none h]; rfl
  | some t => rw [escape_of_some h]; rfl

/-- Each reserved byte takes one more byte on the wire. -/
theorem flatMap_escape_length (bytes : List Byte) :
    (bytes.flatMap escape).length = bytes.length + reservedCount bytes := by
  induction bytes with
  | nil => rfl
  | cons b bs ih =>
    have hcount : reservedCount (b :: bs) = reservedCount [b] + reservedCount bs := List.countP_append (l₁ := [b])
    rw [List.flatMap_cons, List.length_append, escape_length, ih, hcount, List.length_cons]
    omega

theorem frame_length (payload : List Byte) (checksum : Word16) :
    (frame payload checksum).length = payload.length + 4 + reservedCount (frameBody payload checksum) := by
  rw [frame, List.length_cons, List.length_append, flatMap_escape_length, frameBody_length, List.length_singleton]
  omega

/-! ## Drains of a finalized payload -/

/-- Settles O40: with the flag down FINALIZE leaves a frame that is ready to drain. -/
theorem drainAfterFinalizeEmitsTheFrame : Obligations.DrainAfterFinalizeEmitsTheFrame := by
  intro s hl hf
  have hready : (((s.setChecksum (crc16X25 s.loaded)).rewind).respond .ack).ReadyToDrain := ⟨hl, rfl, hf⟩
  refine ⟨_, exec_finalize s hl, rfl, rfl, ?_, ?_⟩
  · rw [← hf]
    exact hready.drain_eq hready.frame_length_lt
  · rw [frame_length, s.loaded_length hl]

/-- With the parameter true RESET leaves the flag down (R80). -/
theorem State.escapeAfterReset_of_clears {s : State} (h : s.config.resetClearsEsc = true) :
    s.escapeAfterReset = false := by
  rw [State.escapeAfterReset, if_pos h]

/-- SEND of an accepted payload, with the flag down, leaves that payload's frame ready to drain, whatever the state held
before (R110). -/
theorem execAll_sendCommands_ready {s : State} {d : List Byte} (hd : d.length ≤ 32) (hf : s.escapePending = false) :
    ∃ t, execAll (sendCommands d) s = .next t ∧ t.ReadyToDrain ∧ t.loaded = d ∧ t.checksum = crc16X25 d :=
  ⟨_, execAll_sendCommands s hd, ⟨(s.loadPayload_inv hd).1, rfl, hf⟩, s.loadPayload_loaded hd, rfl⟩

/-- Settles O43: RESET puts the flag down in every state, and LOAD with FINALIZE is SEND. -/
theorem resetLoadFinalizeIsReproducible : Obligations.ResetLoadFinalizeIsReproducible := by
  intro s d hcfg hd
  obtain ⟨t, ht, hready, hloaded, hchecksum⟩ := execAll_sendCommands_ready hd
    (s := (((s.setCursor 0).setLength 0).setEscapePending s.escapeAfterReset).respond .ack)
    (State.escapeAfterReset_of_clears hcfg)
  refine ⟨t, _, ?_, hready.drain_eq hready.frame_length_lt, ?_⟩
  · rw [execAll_cons, exec_reset, andThen_next]
    exact ht
  · simp only [hloaded, hchecksum]

end Sys2Proof.Machine
end

section
/-! The byte-stuffer (42_escape.md): the positions that never touch the flag (R123), the receiver's map (R125), and a
whole drain under a stale flag (R126). -/

namespace Sys2Proof.Machine

/-! ## Delimiters and DONE (R123) -/

/-- Settles O35: outside the body the one PULL is START's, END's or DONE's, and position and effect read no flag. -/
theorem delimitersIgnoreTheFlag : Obligations.DelimitersIgnoreTheFlag := by
  intro s t flag hpos h
  obtain ⟨hc, rfl⟩ | ⟨h1, h2, -⟩ | ⟨hc, rfl⟩ | ⟨hc, rfl⟩ := exec_pull_next h
  · exact ⟨rfl, exec_pull_start (s.setEscapePending flag) (State.position_start hc)⟩
  · omega
  · exact ⟨rfl, exec_pull_end (s.setEscapePending flag) (State.position_end hc)⟩
  · exact ⟨rfl, exec_pull_done (s.setEscapePending flag) (State.position_done hc)⟩

/-! ## The receiver's map (R125) -/

theorem unstuff_plain {b : Byte} (h : isReserved b = false) (ws : List Byte) :
    unstuff false (b :: ws) = (unstuff false ws).map (b :: ·) := by
  obtain ⟨hend, hpre⟩ : b ≠ frameEnd ∧ b ≠ escapePrefix := by simpa [isReserved] using h
  simp [unstuff, hend, hpre]

/-- An escape sequence of R121 reads back as the reserved byte it stands for. -/
theorem unstuff_sequence {b t : Byte} (h : escapeOf b = some t) (ws : List Byte) :
    unstuff false (escapePrefix :: t :: ws) = (unstuff false ws).map (b :: ·) := by
  obtain ⟨rfl, rfl⟩ | ⟨rfl, rfl⟩ := escapeOf_some h <;> rfl

/-- The map reads one spelling of R124 as its byte, whatever follows. -/
theorem unstuff_escape_append (b : Byte) (ws : List Byte) :
    unstuff false (escape b ++ ws) = (unstuff false ws).map (b :: ·) := by
  cases h : escapeOf b with
  | none =>
    rw [escape_of_none h]
    exact unstuff_plain ((escapeOf_eq_none_iff b).mp h) ws
  | some t =>
    rw [escape_of_some h]
    exact unstuff_sequence h ws

/-- Settles O48, one spelling after another. -/
theorem stuffingIsReversible : Obligations.StuffingIsReversible := by
  intro body
  induction body with
  | nil => rfl
  | cons b bs ih => rw [List.flatMap_cons, unstuff_escape_append, ih, Option.map_some]

/-! ## A stale flag (R126) -/

/-- The body bytes that the cursor has still to move past; all of them at START, none at END and DONE. -/
def State.bodyRest (s : State) : List Byte := (frameBody s.loaded s.checksum).drop (s.cursor.toNat - 1)

/-- Whether the flag will be up once the frame is drained: it is up, and no reserved byte is left to take it down. -/
def State.flagAfterDrain (s : State) : Bool := s.escapePending && !s.bodyRest.any isReserved

section BodyRest

variable {s : State}

theorem State.bodyRest_of_start (h : s.cursor.toNat = 0) : s.bodyRest = frameBody s.loaded s.checksum := by
  simp [State.bodyRest, h]

theorem State.bodyRest_of_past_body (hl : s.LenOk) (h : s.length.toNat + 3 ≤ s.cursor.toNat) : s.bodyRest = [] := by
  refine List.drop_of_length_le ?_
  rw [frameBody_length, s.loaded_length hl]
  omega

/-- At a body position the body byte is next, and advancing takes it off. -/
theorem State.bodyRest_of_body {b : Byte} (hl : s.LenOk) (h1 : 1 ≤ s.cursor.toNat)
    (h2 : s.cursor.toNat ≤ s.length.toNat + 2) (hb : s.bodyByte = some b) : s.bodyRest = b :: s.advance.bodyRest := by
  have hl' : s.length.toNat ≤ 32 := hl
  have hadv : s.advance.cursor.toNat = s.cursor.toNat + 1 := s.advance_toNat (by omega)
  obtain ⟨hlt, hget⟩ := List.getElem?_eq_some_iff.mp ((s.bodyByte_eq hl h1 h2).symm.trans hb)
  have hrest : s.bodyRest = b :: (frameBody s.loaded s.checksum).drop (s.cursor.toNat - 1 + 1) :=
    hget ▸ List.drop_eq_getElem_cons hlt
  rw [hrest, Nat.sub_add_cancel h1, State.bodyRest, hadv]
  rfl

/-- The escape step raises the flag only at a reserved byte that it leaves to come, takes it down as it moves past that
byte, and leaves it alone at any other (R122). -/
theorem State.escapeStep_flagAfterDrain {b : Byte} (h : s.bodyRest = b :: s.advance.bodyRest) :
    (s.escapeStep b).flagAfterDrain = s.flagAfterDrain := by
  have hbefore : s.flagAfterDrain = (s.escapePending && !(isReserved b || s.advance.bodyRest.any isReserved)) := by
    rw [State.flagAfterDrain, h, List.any_cons]
  obtain ⟨hp, hs⟩ | ⟨t, ht, hf, hs⟩ | ⟨t, ht, hf, hs⟩ := s.escapeStep_cases b <;> rw [hs, hbefore]
  · rw [(escapeOf_eq_none_iff b).mp hp, Bool.false_or]
    rfl
  · have hafter : ((s.setEscapePending true).respond (.byte escapePrefix)).bodyRest = s.bodyRest := rfl
    rw [State.flagAfterDrain, hafter, h, List.any_cons, isReserved_of_some ht, hf]
    rfl
  · rw [isReserved_of_some ht, Bool.true_or, Bool.not_true, Bool.and_false]
    rfl

end BodyRest

/-- No PULL changes what the flag will be at the end of the drain. -/
theorem exec_pull_flagAfterDrain {s t : State} (hl : s.LenOk) (h : exec .pull s = .next t) :
    t.flagAfterDrain = s.flagAfterDrain := by
  obtain ⟨hc, rfl⟩ | ⟨h1, h2, b, hb, rfl⟩ | ⟨hc, rfl⟩ | ⟨-, rfl⟩ := exec_pull_next h
  · rw [State.flagAfterDrain, State.flagAfterDrain, State.bodyRest_of_start hc]
    rfl
  · exact State.escapeStep_flagAfterDrain (State.bodyRest_of_body hl h1 h2 hb)
  · have hend : s.pullEnd.bodyRest = [] :=
      State.bodyRest_of_past_body hl (by
        show s.length.toNat + 3 ≤ (s.length + 4).toNat
        rw [State.length_add_four_toNat hl]
        omega)
    rw [State.flagAfterDrain, State.flagAfterDrain, hend, State.bodyRest_of_past_body hl hc.ge]
    rfl
  · rfl

/-- What every PULL keeps, a drain keeps. -/
theorem drain_keeps {P : State → Prop} (hpull : ∀ s t, P s → exec .pull s = .next t → P t) (k : Nat) {s t : State}
    (hs : P s) (h : drain k s = .next t) : P t := by
  induction k generalizing s with
  | zero =>
    obtain rfl := Host.Outcome.next.inj h
    exact hs
  | succ k ih =>
    rw [drain] at h
    cases he : exec .pull s with
    | next u =>
      have hu : P u := hpull s u hs he
      rw [he, andThen_next] at h
      split at h
      · obtain rfl := Host.Outcome.next.inj h
        exact hu
      · exact ih hu h
    | fault f => simp [he, andThen] at h
    | refused r => simp [he, andThen] at h

theorem drain_flagAfterDrain (k : Nat) {s t : State} (hs : s.LenOk) (h : drain k s = .next t) :
    t.flagAfterDrain = s.flagAfterDrain := by
  refine (drain_keeps (P := fun u => u.LenOk ∧ u.flagAfterDrain = s.flagAfterDrain) ?_ k ⟨hs, rfl⟩ h).2
  intro u v hu hv
  obtain ⟨hl, hflag⟩ := hu
  have hframe : u.SameFrame v := exec_pull_sameFrame hv
  exact ⟨by rw [hframe]; exact hl, (exec_pull_flagAfterDrain hl hv).trans hflag⟩

/-- Settles O41: the bytes are what remains at the start of a frame, and past the body the flag is `flagAfterDrain`,
which the drain has kept. -/
theorem drainUnderAStaleFlag : Obligations.DrainUnderAStaleFlag := by
  intro s hl hc
  have hinv : s.Inv := State.inv_of_cursor_zero hl hc
  have hstart : s.cursor.toNat = 0 := by simp [hc]
  obtain ⟨t, ht, hframe, hend, -, hr⟩ := drain_remaining s.drainBound s hinv (s.remaining_length_lt hinv)
  have hlength : t.length = s.length := by rw [hframe]
  have hcur : t.cursor = s.length + 4 := BitVec.eq_of_toNat_eq (hend.trans (State.length_add_four_toNat hl).symm)
  have hflag : t.escapePending = (s.escapePending && !(frameBody s.loaded s.checksum).any isReserved) := by
    have hrest : t.bodyRest = [] :=
      State.bodyRest_of_past_body (by rw [State.LenOk, hlength]; exact hl) (by rw [hlength, hend]; omega)
    calc t.escapePending = t.flagAfterDrain := by simp [State.flagAfterDrain, hrest]
      _ = s.flagAfterDrain := drain_flagAfterDrain s.drainBound hl ht
      _ = _ := by rw [State.flagAfterDrain, State.bodyRest_of_start hstart]
  rw [ht, hframe, hcur, hflag, hr, s.remaining_start hstart]

end Sys2Proof.Machine
end

section
/-! The checksum engine (43_checksum.md): linearity over GF(2) (R137), the left-shifting form (R138), the
algorithm in the rules' own words (R131, R132) and its reference values (R135, R136). -/

namespace Sys2Proof.Machine

/-! ## Linearity (R137) -/

theorem crcStep_xor (c c' : Word16) (b b' : Byte) :
    crcStep (c ^^^ c') (b ^^^ b') = crcStep c b ^^^ crcStep c' b' := by
  have hextend : (b ^^^ b').zeroExtend 16 = b.zeroExtend 16 ^^^ b'.zeroExtend 16 := BitVec.setWidth_xor
  have hregroup : c ^^^ c' ^^^ (b.zeroExtend 16 ^^^ b'.zeroExtend 16) =
      (c ^^^ b.zeroExtend 16) ^^^ (c' ^^^ b'.zeroExtend 16) := by ac_rfl
  rw [crcStep, hextend, hregroup, crcBits_xor]
  rfl

theorem crcStep_zero : crcStep 0 0 = 0 := by decide

/-- The fold is linear in the register and the bytes together, on sequences of equal length. -/
theorem crcFold_zipWith_xor {d e : List Byte} (h : d.length = e.length) (c c' : Word16) :
    crcFold (c ^^^ c') (List.zipWith (· ^^^ ·) d e) = crcFold c d ^^^ crcFold c' e := by
  induction d generalizing e c c' with
  | nil =>
    obtain rfl := List.length_eq_zero_iff.mp h.symm
    rfl
  | cons a d ih =>
    cases e with
    | nil => simp at h
    | cons b e => simp [crcStep_xor, ih (Nat.succ.inj h)]

theorem zipWith_xor_zeros (d : List Byte) : List.zipWith (· ^^^ ·) d (List.replicate d.length 0) = d := by
  induction d with
  | nil => rfl
  | cons b d ih =>
    rw [List.length_cons, List.replicate_succ, List.zipWith_cons_cons, ih]
    exact congrArg (· :: d) BitVec.xor_zero

/-- The three initial values add up to one, and so do the three final XORs, so linearity of the fold carries over to
the checksum (R137 b). -/
theorem crc16X25_zipWith_xor {d e : List Byte} (h : d.length = e.length) :
    crc16X25 (List.zipWith (· ^^^ ·) d e) =
      crc16X25 d ^^^ crc16X25 e ^^^ crc16X25 (List.replicate d.length 0) := by
  have hinit : crcInit = crcInit ^^^ (crcInit ^^^ crcInit) := by decide
  have hfinal : crcFinalXor = crcFinalXor ^^^ crcFinalXor ^^^ crcFinalXor := by decide
  have hlen : e.length = (List.replicate d.length (0 : Byte)).length := by simp [h]
  have hzeros : List.zipWith (· ^^^ ·) e (List.replicate d.length 0) = e := by rw [h, zipWith_xor_zeros]
  calc crc16X25 (List.zipWith (· ^^^ ·) d e)
      = crcFold (crcInit ^^^ (crcInit ^^^ crcInit))
          (List.zipWith (· ^^^ ·) d (List.zipWith (· ^^^ ·) e (List.replicate d.length 0))) ^^^
        (crcFinalXor ^^^ crcFinalXor ^^^ crcFinalXor) := by rw [← hinit, ← hfinal, hzeros, crc16X25]
    _ = (crcFold crcInit d ^^^ (crcFold crcInit e ^^^ crcFold crcInit (List.replicate d.length 0))) ^^^
        (crcFinalXor ^^^ crcFinalXor ^^^ crcFinalXor) := by
      rw [crcFold_zipWith_xor (by rw [hzeros, h]), crcFold_zipWith_xor hlen]
    _ = crc16X25 d ^^^ crc16X25 e ^^^ crc16X25 (List.replicate d.length 0) := by
      simp only [crc16X25]
      ac_rfl

theorem crc16X25_append (d e : List Byte) :
    crc16X25 (d ++ e) = crcFold (crcFold crcInit d) e ^^^ crcFinalXor := by
  rw [crc16X25, crcFold_append]

/-- Settles O51: each turn of the engine is linear, so a step is, and a fold is by induction over the bytes. -/
theorem checksumLaws : Obligations.ChecksumLaws :=
  ⟨crcStep_xor, crcStep_zero, fun _ _ h => crc16X25_zipWith_xor h, crc16X25_append⟩

/-! ## The left-shifting form (R138) -/

theorem getLsbD_zero_reverse (c : Word16) : c.reverse.getLsbD 0 = c.getLsbD 15 := by
  rw [BitVec.getLsbD_reverse]
  rfl

/-- One turn to the left is one turn to the right, seen in a mirror. -/
theorem reverse_crcBitLeft (c : Word16) : (crcBitLeft c).reverse = crcBit c.reverse := by
  unfold crcBitLeft crcBit
  rw [getLsbD_zero_reverse]
  split
  · rw [reverse_xor, reverse_shiftLeft_one, crcPolynomial_reverse]
  · exact reverse_shiftLeft_one c

theorem reverse_crcBitsLeft (k : Nat) (c : Word16) : (crcBitsLeft k c).reverse = crcBits k c.reverse := by
  induction k generalizing c with
  | zero => rfl
  | succ k ih => rw [crcBitsLeft, ih, reverse_crcBitLeft, crcBits]

/-- The byte that R138 reverses and moves to the top of the register is, in the mirror, the byte itself. -/
theorem reverse_byte_at_top (b : Byte) : (b.reverse.zeroExtend 16 <<< 8).reverse = b.zeroExtend 16 := by
  apply BitVec.eq_of_getLsbD_eq
  intro i hi
  simp only [BitVec.getLsbD_reverse, BitVec.getMsbD_eq_getLsbD, BitVec.getLsbD_shiftLeft, BitVec.getLsbD_setWidth]
  by_cases h : i < 8
  · have hmirror : 8 - 1 - (16 - 1 - i - 8) = i := by omega
    have hbits : i < 16 ∧ 16 - 1 - i < 16 ∧ ¬ 16 - 1 - i < 8 ∧ 16 - 1 - i - 8 < 16 ∧ 16 - 1 - i - 8 < 8 := by
      omega
    simp only [hmirror, hbits, decide_true, decide_false, Bool.not_false, Bool.true_and]
  · have hlow : 16 - 1 - i < 8 := by omega
    simp [hlow, BitVec.getLsbD_of_ge b i (by omega)]

theorem reverse_crcStepLeft (c : Word16) (b : Byte) : (crcStepLeft c b).reverse = crcStep c.reverse b := by
  rw [crcStepLeft, reverse_crcBitsLeft, reverse_xor, reverse_byte_at_top, crcStep]

theorem reverse_foldl_crcStepLeft (d : List Byte) (c : Word16) :
    (d.foldl crcStepLeft c).reverse = crcFold c.reverse d := by
  induction d generalizing c with
  | nil => rfl
  | cons b d ih => rw [List.foldl_cons, ih, reverse_crcStepLeft, crcFold_cons]

theorem crcInit_reverse : crcInit.reverse = crcInit := by decide

/-- Settles O52: reversal carries the left-shifting register through every byte onto the right-shifting one, and both
start from a value that is its own mirror image. -/
theorem nonReflectedFormAgrees : Obligations.NonReflectedFormAgrees := by
  intro d
  rw [crc16Left, reverse_foldl_crcStepLeft, crcInit_reverse, crc16X25]

/-! ## The algorithm and its reference values (R131, R132, R135, R136) -/

/-- One turn as R131 writes it, the test being on the masked register. -/
theorem crcBit_eq_mask (c : Word16) :
    crcBit c = if c &&& 1 = 1 then (c >>> 1) ^^^ 0x8408 else c >>> 1 := by
  have hmask : c &&& 1 = (BitVec.ofBool (c.getLsbD 0)).setWidth 16 := BitVec.and_one_eq_setWidth_ofBool_getLsbD
  rw [hmask, crcBit]
  cases c.getLsbD 0 <;> rfl

theorem crcBits_eq_iterate (k : Nat) (c : Word16) : crcBits k c = crcBit^[k] c := by
  induction k generalizing c with
  | zero => rfl
  | succ k ih => rw [crcBits, ih, Function.iterate_succ_apply]

/-- Settles O49: a turn is R131's, eight of them are a step, and the checksum's constants are R132's. -/
theorem checksumAlgorithm : Obligations.ChecksumAlgorithm := by
  refine ⟨crcPolynomial_reverse, ?_, fun d => rfl⟩
  intro c b
  rw [crcStep, crcBits_eq_iterate, funext crcBit_eq_mask]

/-- Settles O50, by running the engine on each input; the last is the catalogue's check value. -/
theorem referenceChecksums : Obligations.ReferenceChecksums :=
  ⟨crc16X25_nil, by decide +kernel, by decide +kernel, by decide +kernel⟩

end Sys2Proof.Machine
end

section
/-! The ping commands (44_ping.md R150 to R152): each is a SEND of its one code, and its frame body holds no
reserved byte, so its drain is the same whatever the flag. -/

namespace Sys2Proof.Machine

/-! ## A drain that meets no reserved byte -/

/-- Once there are PULLs enough for what remains and the Exhausted after it, more of them change nothing: a DRAIN ends
at its Exhausted (R72). -/
theorem drain_eq_drain {k k' : Nat} {s : State} (hs : s.Inv) (hk : s.remaining.length < k)
    (hk' : s.remaining.length < k') : drain k s = drain k' s := by
  induction k generalizing s k' with
  | zero => cases hk
  | succ k ih =>
    cases k' with
    | zero => cases hk'
    | succ k' =>
      obtain ⟨t, ht, -, hl, hc, ⟨b, hb, hr⟩ | ⟨-, rfl⟩⟩ := exec_pull_remaining s hs.1 hs.2
      · rw [hb, List.length_cons] at hk hk'
        have hlast : t.responsePort.getLast? = some (.byte b) := by simp [hr]
        rw [drain_succ_of_byte k ht hlast, drain_succ_of_byte k' ht hlast]
        exact ih ⟨hl, hc⟩ (Nat.lt_of_succ_lt_succ hk) (Nat.lt_of_succ_lt_succ hk')
      · rw [drain_succ_of_exhausted k ht (by simp), drain_succ_of_exhausted k' ht (by simp)]

/-- Without a reserved byte the flag is never read: the body bytes stand on the wire as they are (R122, R126). -/
theorem staleBody_of_no_reserved (stale : Bool) {bs : List Byte} (h : bs.any isReserved = false) :
    staleBody stale bs = bs := by
  induction bs with
  | nil => rfl
  | cons b bs ih =>
    obtain ⟨hb, hbs⟩ := Bool.or_eq_false_iff.mp (List.any_cons.symm.trans h)
    rw [staleBody_plain stale bs ((escapeOf_eq_none_iff b).mpr hb), ih hbs]

/-- The drain of R126 without a reserved body byte: one PULL for each position, and the flag stays. -/
theorem drain_of_no_reserved {s : State} {k : Nat} (hl : s.LenOk) (hc : s.cursor = 0)
    (hbody : (frameBody s.loaded s.checksum).any isReserved = false) (hk : s.length.toNat + 4 < k) :
    drain k s = .next { s with
      cursor := s.length + 4,
      responsePort := s.responsePort ++
        (frameEnd :: (frameBody s.loaded s.checksum ++ [frameEnd])).map .byte ++ [.exhausted] } := by
  have hinv : s.Inv := State.inv_of_cursor_zero hl hc
  have hremaining : s.remaining.length = s.length.toNat + 4 := by
    simp [s.remaining_start (by simp [hc]), staleBody_of_no_reserved _ hbody, frameBody_length, s.loaded_length hl]
  rw [drain_eq_drain hinv (hremaining ▸ hk) (s.remaining_length_lt hinv), drainUnderAStaleFlag s hl hc,
    staleBody_of_no_reserved _ hbody, hbody, Bool.not_false, Bool.and_true]

/-! ## A ping -/

section Ping

variable (s : State) (code : Byte)

theorem State.ping_eq : s.ping code = { s with
    payload := (s.ping code).payload, length := 1, checksum := crc16X25 [code], cursor := 0,
    responsePort := s.responsePort ++ [.ack] } := rfl

theorem State.ping_loaded : (s.ping code).loaded = [code] :=
  s.loadPayload_loaded (d := [code]) (by simp)

theorem State.ping_readByte_zero : (s.ping code).readByte 0 = some code :=
  Payload.store_getElem?_of_lt s.payload [code] Nat.one_pos (by simp)

theorem State.ping_readByte_of_ne {k : Nat} (hk : k ≠ 0) : (s.ping code).readByte k = s.readByte k :=
  Payload.store_getElem?_of_le s.payload [code] (Nat.one_le_iff_ne_zero.mpr hk)

/-- The drain of a ping whose code and checksum hold no reserved byte. -/
theorem State.drain_ping {code : Byte} {c : Word16} (hcrc : crc16X25 [code] = c)
    (hbody : (frameBody [code] c).any isReserved = false) :
    drain 6 (s.ping code) = .next { s.ping code with
      cursor := 5,
      responsePort := (s.ping code).responsePort ++
        ((frameEnd :: (frameBody [code] c ++ [frameEnd])).map .byte ++ [.exhausted]) } := by
  have hframe : frameBody (s.ping code).loaded (s.ping code).checksum = frameBody [code] c :=
    congrArg₂ frameBody (s.ping_loaded code) hcrc
  rw [drain_of_no_reserved (s.ping_inv code).1 rfl (hframe ▸ hbody) (by decide : 1 + 4 < 6), hframe,
    List.append_assoc]
  rfl

/-- A ping is SEND of its code with one response in place of two (R152): the atomic step writes the same fields. -/
theorem State.ping_eq_send : ∃ t, execAll (sendCommands [code]) s = .next t ∧
    s.ping code = { t with responsePort := (s.ping code).responsePort } :=
  ⟨_, execAll_sendCommands s (by simp), rfl⟩

end Ping

theorem crc16X25_pingRequestCode : crc16X25 [pingRequestCode] = 0xE1F1 := by decide

theorem crc16X25_pingConfirmCode : crc16X25 [pingConfirmCode] = 0x65F9 := by decide

/-- Settles O22: none of 01, E1, F1 is reserved. -/
theorem pingRequestEffect : Obligations.PingRequestEffect := by
  have hcrc := crc16X25_pingRequestCode
  exact ⟨rfl, hcrc, fun s => ⟨_, exec_pingRequest s, hcrc ▸ s.ping_eq pingRequestCode,
    s.ping_readByte_zero pingRequestCode, fun _ => s.ping_readByte_of_ne pingRequestCode,
    s.drain_ping hcrc (by decide)⟩⟩

/-- Settles O23: none of 81, 65, F9 is reserved. -/
theorem pingConfirmEffect : Obligations.PingConfirmEffect := by
  have hcrc := crc16X25_pingConfirmCode
  exact ⟨rfl, hcrc, fun s => ⟨_, exec_pingConfirm s, hcrc ▸ s.ping_eq pingConfirmCode,
    s.ping_readByte_zero pingConfirmCode, fun _ => s.ping_readByte_of_ne pingConfirmCode,
    s.drain_ping hcrc (by decide)⟩⟩

/-- Settles O24: `State.ping_eq_send` for each code. -/
theorem pingEqualsLoadThenFinalize : Obligations.PingEqualsLoadThenFinalize := by
  intro s
  obtain ⟨t, ht, hrequest⟩ := s.ping_eq_send pingRequestCode
  obtain ⟨u, hu, hconfirm⟩ := s.ping_eq_send pingConfirmCode
  exact ⟨⟨t, _, ht, exec_pingRequest s, hrequest⟩, u, _, hu, exec_pingConfirm s, hconfirm⟩

end Sys2Proof.Machine
end

section
/-! Errors and independence (60_exceptions.md): the one error the block answers, and instances that share nothing. -/

namespace Sys2Proof.Machine

/-! ## The one error -/

/-- Which commands answer an error, and which error (R161). -/
theorem exec_answers_error_iff {i : Instr} {s t : State} (e : ErrorKind) (h : exec i s = .next t) :
    t.responsePort = s.responsePort ++ [.error e] ↔ e = .bufferOverflow ∧ ∃ d, i = .load d ∧ 32 < d.length := by
  constructor
  · intro he
    have answer_unique {r : Response} (hr : t.responsePort = s.responsePort ++ [r]) : r = .error e := by
      simpa using hr.symm.trans he
    obtain ⟨-, -, hr⟩ | ⟨d, hi, hd, hr⟩ | ⟨-, -, b, hr⟩ | ⟨-, -, hr⟩ := exec_responsePort h
    · cases answer_unique hr
    · cases answer_unique hr
      exact ⟨rfl, d, hi, hd⟩
    · cases answer_unique hr
    · cases answer_unique hr
  · rintro ⟨rfl, d, rfl, hd⟩
    rw [exec_load_rejected s hd] at h
    cases h
    exact s.reject_responsePort .bufferOverflow

/-- Settles O18: what answers an error is a rejected LOAD, and `exec_load_rejected` gives its whole effect. -/
theorem onlyOversizedLoadFails : Obligations.OnlyOversizedLoadFails := by
  refine ⟨rfl, fun i s t e h => ⟨exec_answers_error_iff e h, fun he => ?_⟩⟩
  obtain ⟨-, d, rfl, hd⟩ := (exec_answers_error_iff e h).mp he
  exact Host.Outcome.next.inj (h.symm.trans (exec_load_rejected s hd))

/-! ## Instances side by side -/

/-- Everything that a step of one encoder does where it answers the list of all (R170). -/
theorem stepInstance_next_iff {k : Nat} {all after : List State} :
    stepInstance k all = .next after ↔ ∃ s t, all[k]? = some s ∧ step s = .next t ∧ after = all.set k t := by
  constructor
  · intro h
    unfold stepInstance at h
    split at h
    · cases h
    · next s hs =>
      split at h
      · next t ht => exact ⟨s, t, hs, ht, (Stepped.next.inj h).symm⟩
      · cases h
      · cases h
  · rintro ⟨s, t, hs, ht, rfl⟩
    simp only [stepInstance, hs, ht]

/-- Settles O54: each step reads and writes its own place in the list, and writes at two places commute. -/
theorem instancesAreIndependent : Obligations.InstancesAreIndependent := by
  intro j k all one both hjk hj hk
  obtain ⟨s, s', hs, hstep, rfl⟩ := stepInstance_next_iff.mp hj
  obtain ⟨t, t', ht, htstep, rfl⟩ := stepInstance_next_iff.mp hk
  have hkeepk : (all.set j s')[k]? = all[k]? := List.getElem?_set_ne hjk
  have hkeepj : (all.set k t')[j]? = all[j]? := List.getElem?_set_ne hjk.symm
  exact ⟨hkeepk, all.set k t', stepInstance_next_iff.mpr ⟨t, t', hkeepk.symm.trans ht, htstep, rfl⟩,
    stepInstance_next_iff.mpr ⟨s, s', hkeepj.trans hs, hstep, List.set_comm s' t' hjk⟩⟩

end Sys2Proof.Machine
end

section
/-! Reset and hazards (70_reset_and_hazards.md): RESET against power-on (R182), what shows that the block is mid-escape
(R186), abandoned frames (R188), and well-sequenced streams (R184, R185). -/

namespace Sys2Proof.Machine

/-! ## RESET against power-on (R182) -/

theorem State.escapeAfterReset_eq_and (s : State) :
    s.escapeAfterReset = (!s.config.resetClearsEsc && s.escapePending) := by
  cases h : s.config.resetClearsEsc <;> simp [State.escapeAfterReset, h]

/-- Settles O27: RESET leaves `length` 0, so no payload byte shows, and every other field is written out. -/
theorem resetComparedWithPowerOn : Obligations.ResetComparedWithPowerOn := by
  intro s
  refine ⟨_, exec_reset s, ?_, fun i hi => absurd hi (Nat.not_lt_zero i)⟩
  rw [s.escapeAfterReset_eq_and]
  rfl

/-! ## Mid-escape (R186) -/

/-- Where no stale flag is up at a plain byte (R29), the escape step leaves the flag up exactly if it answers ESCAPE: no
plain byte is ESCAPE, and neither is the second byte of an escape sequence. -/
theorem State.escapeStep_flag_iff {s : State} {b : Byte} (hplain : escapeOf b = none → s.escapePending = false) :
    (s.escapeStep b).escapePending = true ↔
      (s.escapeStep b).responsePort.getLast? = some (.byte escapePrefix) := by
  obtain ⟨hp, hs⟩ | ⟨t, -, -, hs⟩ | ⟨t, ht, -, hs⟩ := s.escapeStep_cases b <;>
    rw [hs, State.respond_getLast?, State.respond_escapePending]
  · have hb : b ≠ escapePrefix := by
      rintro rfl
      cases hp
    simp [hplain hp, hb]
  · simp
  · obtain ⟨-, rfl⟩ | ⟨-, rfl⟩ := escapeOf_some ht <;> simp [escapePrefix, escapeEnd, escapeEscape]

/-- Under I-ESC a set flag stands at a reserved body byte, whose PULL ends the escape sequence. -/
theorem State.EscOk.exec_pull_of_flag {s : State} (h : s.EscOk) (hf : s.escapePending = true) :
    ∃ b, exec .pull s = .next (((s.setEscapePending false).advance).respond (.byte b)) := by
  obtain ⟨-, -, hr⟩ := h hf
  cases hb : s.bodyByte with
  | none =>
    rw [hb] at hr
    cases hr
  | some b =>
    rw [hb, Option.any_some] at hr
    exact ⟨_, (exec_pull_body s hb).trans (congrArg _ (s.escapeStep_transformed (escapeOf_of_reserved hr) hf))⟩

/-- Settles O37: at a body position by the escape step; elsewhere I-ESC keeps the flag down and no response is
ESCAPE. The PULL keeps I-ESC, so a flag that is up meets its reserved byte at the next one. -/
theorem midEscapeShowsAsPrefix : Obligations.MidEscapeShowsAsPrefix := by
  intro s t hs h
  refine ⟨?_, fun hf => ?_⟩
  · obtain ⟨hc, rfl⟩ | ⟨-, -, b, hb, rfl⟩ | ⟨hc, rfl⟩ | ⟨hc, rfl⟩ := exec_pull_next h
    · simp [State.pullStart, hs.flag_down_outside_body (.inl hc), frameEnd]
    · exact State.escapeStep_flag_iff (hs.flag_down_of_plain hb)
    · simp [State.pullEnd, hs.flag_down_outside_body (.inr hc.ge), frameEnd]
    · simp [State.pullDone, hs.flag_down_outside_body (.inr hc.le)]
  · obtain ⟨b, hb⟩ := (exec_pull_keeps_escOk hs h).exec_pull_of_flag hf
    exact ⟨_, hb, rfl, rfl⟩

/-! ## Abandoned frames (R188) -/

/-- With the flag down no command breaks obligation 2. -/
theorem keepsEscapeRule_of_flag_down (i : Instr) {s : State} (h : s.escapePending = false) :
    keepsEscapeRule i s = true := by
  cases i <;> simp [keepsEscapeRule, h]

/-- Settles O38: the rewound cursor stands at START, and a lowered flag is what obligation 2 asks for. -/
theorem rewindStartsANewFrame : Obligations.RewindStartsANewFrame := by
  intro i s hl hp hd
  obtain ⟨t, ht⟩ := exec_completes i hl
  have hc : t.cursor = 0 := exec_cursor_of_rewinds hp hd ht
  exact ⟨t, ht, hc, fun hf => (rewinds_of_keepsEscapeRule hp hd (keepsEscapeRule_of_flag_down i hf) ht).2,
    pullAtStart t hc⟩

/-! ## The checksum along a stream (R185) -/

theorem andThen_eq_next_iff {o : Host.Outcome State Fault Refusal} {f : State → Host.Outcome State Fault Refusal}
    {t : State} : andThen o f = .next t ↔ ∃ u, o = .next u ∧ f u = .next t := by
  cases o <;> simp [andThen]

/-- What is known of the checksum at a point of a stream, given whether a loaded payload waits for its FINALIZE and
whether a RESET has come since the last FINALIZE or ping. -/
def State.ChecksumTracked (waiting earlier : Bool) (s : State) : Prop :=
  waiting = false → earlier = false → s.ChecksumMatches

/-- FINALIZE and the pings make the checksum match; RESET and an accepted LOAD are tracked; the rest change neither the
payload nor the register. -/
theorem exec_keeps_checksumTracked {i : Instr} {waiting earlier : Bool} {s t : State}
    (hs : s.ChecksumTracked waiting earlier) (h : exec i s = .next t) :
    t.ChecksumTracked (loadWaits waiting i) (resetSince earlier i) := by
  cases i with
  | reset => exact fun _ he => nomatch he
  | load d =>
    obtain ⟨hd, rfl⟩ | ⟨hd, rfl⟩ := exec_load_next h
    · rw [loadWaits_load_accepted hd]
      exact fun hw => nomatch hw
    · rw [loadWaits_load_rejected hd]
      exact hs
  | finalize =>
    obtain ⟨-, rfl⟩ := exec_finalize_next h
    exact fun _ _ => rfl
  | pull =>
    rw [exec_pull_sameFrame h]
    exact hs
  | pingRequest =>
    obtain rfl := Host.Outcome.next.inj h
    exact fun _ _ => congrArg crc16X25 (s.ping_loaded pingRequestCode).symm
  | pingConfirm =>
    obtain rfl := Host.Outcome.next.inj h
    exact fun _ _ => congrArg crc16X25 (s.ping_loaded pingConfirmCode).symm

theorem execAll_keeps_checksumTracked {is : List Instr} {waiting earlier : Bool} {s t : State}
    (hs : s.ChecksumTracked waiting earlier) (h : execAll is s = .next t) :
    t.ChecksumTracked (is.foldl loadWaits waiting) (is.foldl resetSince earlier) := by
  induction is generalizing waiting earlier s with
  | nil =>
    cases h
    exact hs
  | cons i is ih =>
    obtain ⟨u, hu, ht⟩ := andThen_eq_next_iff.mp h
    exact ih (exec_keeps_checksumTracked hs hu) ht

/-- RESET keeps the register and leaves no payload, whose checksum is 0x0000. -/
theorem checksumMatches_after_reset_iff {s t : State} (h : exec .reset s = .next t) :
    t.ChecksumMatches ↔ s.checksum = 0x0000 := by
  obtain rfl := Host.Outcome.next.inj h
  rw [State.ChecksumMatches, State.loaded_of_length_zero rfl, crc16X25_nil]
  rfl

/-- Settles O46: `ChecksumTracked` at the end of the stream; the clause on RESET is a lemma of its own. -/
theorem checksumMatchesUnlessALoadOrResetWaits : Obligations.ChecksumMatchesUnlessALoadOrResetWaits :=
  ⟨fun _ _ _ _ _ _ hs h => execAll_keeps_checksumTracked hs h, fun _ _ => checksumMatches_after_reset_iff⟩

/-! ## Well-sequenced streams (R184) -/

/-- The first command of a well-sequenced stream keeps both obligations. -/
theorem keepsRules_of_wellSequenced {waiting : Bool} {i : Instr} {is : List Instr} {s : State}
    (h : wellSequenced waiting (i :: is) s = true) :
    keepsFinalizeRule waiting i = true ∧ keepsEscapeRule i s = true := by
  rw [wellSequenced, Bool.and_eq_true, Bool.and_eq_true] at h
  exact h.1

/-- A command that rewinds leaves I-LEN whatever it meets: FINALIZE completes only where I-LEN holds, and the others set
`length`. -/
theorem lenOk_of_rewinds {i : Instr} {s t : State} (hp : i ≠ .pull) (hd : ∀ d, i = .load d → d.length ≤ 32)
    (h : exec i s = .next t) : t.LenOk := by
  cases i with
  | reset =>
    obtain rfl := Host.Outcome.next.inj h
    exact Nat.zero_le 32
  | load d =>
    rw [exec_load_accepted s (hd d rfl)] at h
    obtain rfl := Host.Outcome.next.inj h
    exact (s.loadPayload_inv (hd d rfl)).1
  | finalize =>
    obtain ⟨hl, rfl⟩ := exec_finalize_next h
    exact hl
  | pull => exact absurd rfl hp
  | pingRequest =>
    obtain rfl := Host.Outcome.next.inj h
    exact (s.ping_inv pingRequestCode).1
  | pingConfirm =>
    obtain rfl := Host.Outcome.next.inj h
    exact (s.ping_inv pingConfirmCode).1

/-- A command that rewinds and keeps obligation 2 leaves a frame ready to drain. -/
theorem readyToDrain_of_keepsEscapeRule {i : Instr} {s t : State} (hp : i ≠ .pull)
    (hd : ∀ d, i = .load d → d.length ≤ 32) (hk : keepsEscapeRule i s = true) (h : exec i s = .next t) :
    t.ReadyToDrain :=
  ⟨lenOk_of_rewinds hp hd h, rewinds_of_keepsEscapeRule hp hd hk h⟩

/-- Settles O45: obligation 2 at the rewinding command makes its frame ready to drain; obligation 1 at the first PULL
says that no LOAD waits, so `ChecksumTracked` gives the checksum. -/
theorem wellSequencedStreamsEmitFrames : Obligations.WellSequencedStreamsEmitFrames := by
  intro before i k waiting earlier s t _ hs hp hd hw h
  refine ⟨?_, fun hk hreset => ?_⟩
  · rw [execAll_append] at h
    obtain ⟨u, hu, hi⟩ := andThen_eq_next_iff.mp h
    obtain ⟨v, hv, hvt⟩ := andThen_eq_next_iff.mp hi
    cases hvt
    obtain ⟨-, hesc⟩ := keepsRules_of_wellSequenced (wellSequenced_rest hw hu)
    exact pullsEmitTheFrameInOrder t k (readyToDrain_of_keepsEscapeRule hp hd hesc hv)
  · obtain ⟨n, rfl⟩ := Nat.exists_eq_add_of_le' hk
    rw [List.append_cons, List.replicate_succ] at hw
    obtain ⟨hfin, -⟩ := keepsRules_of_wellSequenced (wellSequenced_rest hw h)
    exact execAll_keeps_checksumTracked hs h ((Bool.not_eq_true' _).mp hfin) hreset

end Sys2Proof.Machine
end
